-- ==== Sys2Proof/Word.lean ====
section
/-! DEFINITION. The word types of the WYT frame codec: the byte, the 32-bit command word, and the plainest functions on byte
lists that fix what a fixed-width bus or buffer holds. -/

namespace Sys2Proof

/-- A byte, bits 7:0, bit 0 least significant (R8, R44). -/
abbrev Byte := BitVec 8

/-- A 32-bit port word: the command word CMD (R54) or the STATE word (R60). -/
abbrev Word := BitVec 32

end Sys2Proof
end

