-- ==== Sys2Proof/Config.lean ====
section
/-! DEFINITION. What is fixed when the block is built (R158): the Field Table's data type (R87 to R93), the parameters of R6,
and the constants without a body that stand for the parameters the spec leaves OPEN. The variant types of the semantic data
model (R15) stand here because the table has one wire code per variant. -/

namespace Sys2Proof

/-- R15 `sleep_mode`. -/
inductive SleepMode
  | off | standard | theAged | child
deriving DecidableEq, Repr

/-- R15 `mode`. -/
inductive Mode
  | heat | dehumidify | cool | fan | auto
deriving DecidableEq, Repr

/-- R15 `wind_speed`: Auto, the speeds 1 to 6, Mute. -/
inductive WindSpeed
  | auto | speed1 | speed2 | speed3 | speed4 | speed5 | speed6 | mute
deriving DecidableEq, Repr

/-- R15 `vertical_vane`. -/
inductive VerticalVane
  | auto | upDownFlow | upFlow | downFlow | topFix | upperFix | middleFix | aboveDownFix | bottomFix
deriving DecidableEq, Repr

/-- R15 `horizontal_vane`. -/
inductive HorizontalVane
  | auto | leftRightFlow | leftFlow | middleFlow | rightFlow | leftFix | leftMiddleFix | middleFix | rightMiddleFix | rightFix
deriving DecidableEq, Repr

/-- The twelve fields of `ClimateState`, in the document's order (R15, R58). -/
inductive Field
  | power | display | buzzer | eco | heater8Degree | health
  | sleepMode | mode | windSpeed | verticalVane | horizontalVane | targetTemperature
deriving DecidableEq, Repr

/-- R15 `ClimateState`, "a pure value type with no identity beyond its fields". The target temperature is held in quarter
degrees (R11): the domain [16.0, 31.0] with step 0.25 is 64..124. -/
structure ClimateState where
  power : Bool
  display : Bool
  buzzer : Bool
  eco : Bool
  heater8Degree : Bool
  health : Bool
  sleepMode : SleepMode
  mode : Mode
  windSpeed : WindSpeed
  verticalVane : VerticalVane
  horizontalVane : HorizontalVane
  targetQuarters : Nat
deriving DecidableEq, Repr

/-- A nibble position of R93: `lo` is bits 3:0, `hi` is bits 7:4. -/
inductive NibblePos
  | lo | hi
deriving DecidableEq, Repr, Inhabited

/-- R89: the entry of a bool field, payload offset and one-bit mask. -/
structure BoolEntry where
  off : Nat
  mask : Byte
deriving DecidableEq, Repr, Inhabited

/-- R90: the entry of an enum field of `n` variants. `enc` holds the wire code of each variant in port-code order;
`unassigned` is the set the spec calls `alias`, the patterns that decode to the default. -/
structure EnumEntry (n : Nat) where
  off : Nat
  mask : Byte
  enc : Vector Byte n
  unassigned : List Byte
deriving DecidableEq, Repr, Inhabited

/-- R91: the composite entry of wind_speed. Selectors are 5 bits, upper two bits high. -/
structure WindEntry where
  offU : Nat
  maskU : Byte
  offL : Nat
  maskL : Byte
  enc : Vector (BitVec 5) 8
  unassigned : List (BitVec 5)
deriving DecidableEq, Repr, Inhabited

/-- R92: the entry of a vane field of `n` variants, Auto being port code 0. `flow` is the flow bit of each variant in
port-code order, so `auto_flow` is its head. -/
structure VaneEntry (n : Nat) where
  offE : Nat
  maskE : Byte
  offF : Nat
  bitF : Byte
  enc : Vector Byte n
  flow : Vector Bool n
  unassigned : List Byte
deriving DecidableEq, Repr, Inhabited

/-- R93: the temperature entry. -/
structure TempEntry where
  offI : Nat
  posI : NibblePos
  offF : Nat
  posF : NibblePos
deriving DecidableEq, Repr, Inhabited

/-- R87, R88: the Field Table `FT`, one entry per field; it is a parameter of the block. -/
structure FieldTable where
  power : BoolEntry
  display : BoolEntry
  buzzer : BoolEntry
  eco : BoolEntry
  heater8Degree : BoolEntry
  health : BoolEntry
  sleepMode : EnumEntry 4
  mode : EnumEntry 5
  windSpeed : WindEntry
  verticalVane : VaneEntry 9
  horizontalVane : VaneEntry 10
  temperature : TempEntry
deriving DecidableEq, Repr, Inhabited

/-- R6, R50, R155, D26: how a host attaches the request port; no rule depends on it. The spec names the first four ways and
leaves the choice to the platform, so any further way has a number of its own (log entry 1). -/
inductive Attach
  | handshake
  | memoryMapped
  | coprocessorPort
  | stream
  | other (way : Nat)
deriving DecidableEq, Repr, Inhabited

/-- The parameters of R6 that a build chooses. `kcatMore` is the catalog beyond entry 0, which R123 fixes. `latency` lists
cycles per operation code (R160). MIN_FRAME_LEN, TEMP_MIN and TEMP_MAX are constants of the spec, not fields. -/
structure Config where
  fracBits : Nat
  pLen : Nat
  nMax : Nat
  ft : FieldTable
  kcatMore : List (List Byte)
  hasFe : Bool
  latency : List Nat
  attach : Attach
deriving DecidableEq, Repr

/-- R6: `FT` is OPEN. A constant without a body: no proof can learn an entry of it. -/
opaque Config.openFieldTable : FieldTable

/-- R6, R123: `KCAT` is OPEN beyond entry 0. -/
opaque Config.openCatalog : List (List Byte)

/-- R6, R160: `LATENCY` is OPEN. -/
opaque Config.openLatency : List Nat

/-- R6, R50: `ATTACH` is OPEN. -/
opaque Config.openAttach : Attach

end Sys2Proof
end

