-- ==== Sys2Proof/Machine/Bits.lean ====
section
/-! DEFINITION. The bit and byte-string primitives of R8 and R9, and the checksum fold of R81. -/

namespace Sys2Proof

/-- The bits of a byte, bit 0 first (R44). -/
def Byte.bits (b : Byte) : List Bool := (List.range 8).map fun i => b.getLsbD i

/-- The number whose bits these are, bit 0 first. -/
def natOfBits : List Bool → Nat
  | [] => 0
  | b :: bs => b.toNat + 2 * natOfBits bs

/-- The byte with these bits, bit 0 first. -/
def Byte.ofBits (bs : List Bool) : Byte := BitVec.ofNat 8 (natOfBits bs)

/-- R9: spread the bits `xs`, lowest first, over the set positions of a mask; every other position is 0. -/
def depositBits : List Bool → List Bool → List Bool
  | [], _ => []
  | false :: ms, xs => false :: depositBits ms xs
  | true :: ms, [] => false :: depositBits ms []
  | true :: ms, x :: xs => x :: depositBits ms xs

/-- R9: gather the bits at the set positions of a mask, lowest first. -/
def extractBits : List Bool → List Bool → List Bool
  | true :: ms, v :: vs => v :: extractBits ms vs
  | false :: ms, _ :: vs => extractBits ms vs
  | _, _ => []

/-- R9 `pdep(x, m)`. -/
def pdep (x m : Byte) : Byte := Byte.ofBits (depositBits m.bits x.bits)

/-- R9 `pext(v, m)`, zero-extended to a byte. -/
def pext (v m : Byte) : Byte := Byte.ofBits (extractBits m.bits v.bits)

/-- R8 `popcount(m)`. -/
def popcount (m : Byte) : Nat := m.bits.count true

/-- What an `n`-byte bus or buffer holds when `bytes` are driven from index 0: a list is read as a bus value by taking the
missing bytes at its end to be 0x00. -/
def fitBytes (n : Nat) (bytes : List Byte) : List Byte := bytes.take n ++ List.replicate (n - bytes.length) 0

/-- Byte `i` of a byte string (R10 `frame[i]`). -/
def byteAt (bytes : List Byte) (i : Nat) : Byte := bytes.getD i 0

/-- R103 `p[off] <- p[off] | b`. -/
def orAt (p : List Byte) (off : Nat) (b : Byte) : List Byte := p.modify off (· ||| b)

/-- R121: the bytewise OR of two payloads. -/
def orBytes (p q : List Byte) : List Byte := List.zipWith (· ||| ·) p q

/-- An all-zero payload of `n` bytes (R119). -/
def zeroBytes (n : Nat) : List Byte := List.replicate n 0

/-- R81 `compute(bytes)`: the running XOR fold, left to right, initial value 0. -/
def xorFold (bytes : List Byte) : Byte := bytes.foldl (· ^^^ ·) 0

/-- R82 `verify(frame)`: the XOR of all bytes but the last equals the last. An empty frame has no last byte and does not
verify (R137 takes 0 for it, R85 an error). -/
def verifyFrame (frame : List Byte) : Bool :=
  match frame.getLast? with
  | none => false
  | some c => xorFold frame.dropLast == c

end Sys2Proof
end

