-- ==== Sys2Proof/Machine/Legal.lean ====
section
/-! DEFINITION. Which configurations the spec allows: the well-formedness of `FT` (WF1 to WF8, R95 to R102), of `KCAT` (R123)
and of the numeric parameters (R6); the fixture `FT_EX` (R118); and the reference configuration. -/

namespace Sys2Proof

/-! ## Derived lengths -/

/-- R6, D10: MIN_FRAME_LEN. -/
def minFrameLen : Nat := 5

/-- R41: N_SS = P_LEN + 5. -/
def Config.nSs (c : Config) : Nat := c.pLen + 5

/-! ## The Field Table -/

/-- R16: the flow-type variants of the vertical vane are UpDownFlow, UpFlow and DownFlow. -/
def VerticalVane.isFlow : VerticalVane → Bool
  | .upDownFlow | .upFlow | .downFlow => true
  | .auto | .topFix | .upperFix | .middleFix | .aboveDownFix | .bottomFix => false

/-- R16: the flow-type variants of the horizontal vane are LeftRightFlow, LeftFlow, MiddleFlow and RightFlow. -/
def HorizontalVane.isFlow : HorizontalVane → Bool
  | .leftRightFlow | .leftFlow | .middleFlow | .rightFlow => true
  | .auto | .leftFix | .leftMiddleFix | .middleFix | .rightMiddleFix | .rightFix => false

/-- R59: port codes are positions in the variant list. -/
def SleepMode.port : SleepMode → Fin 4
  | .off => 0 | .standard => 1 | .theAged => 2 | .child => 3

/-- R59. -/
def Mode.port : Mode → Fin 5
  | .heat => 0 | .dehumidify => 1 | .cool => 2 | .fan => 3 | .auto => 4

/-- R59. -/
def WindSpeed.port : WindSpeed → Fin 8
  | .auto => 0 | .speed1 => 1 | .speed2 => 2 | .speed3 => 3 | .speed4 => 4 | .speed5 => 5 | .speed6 => 6 | .mute => 7

/-- R59. -/
def VerticalVane.port : VerticalVane → Fin 9
  | .auto => 0 | .upDownFlow => 1 | .upFlow => 2 | .downFlow => 3 | .topFix => 4 | .upperFix => 5 | .middleFix => 6
  | .aboveDownFix => 7 | .bottomFix => 8

/-- R59. -/
def HorizontalVane.port : HorizontalVane → Fin 10
  | .auto => 0 | .leftRightFlow => 1 | .leftFlow => 2 | .middleFlow => 3 | .rightFlow => 4 | .leftFix => 5
  | .leftMiddleFix => 6 | .middleFix => 7 | .rightMiddleFix => 8 | .rightFix => 9

/-- The variants of each enum field in port-code order (R15, R59). -/
def SleepMode.all : List SleepMode := [.off, .standard, .theAged, .child]
def Mode.all : List Mode := [.heat, .dehumidify, .cool, .fan, .auto]
def WindSpeed.all : List WindSpeed := [.auto, .speed1, .speed2, .speed3, .speed4, .speed5, .speed6, .mute]
def VerticalVane.all : List VerticalVane :=
  [.auto, .upDownFlow, .upFlow, .downFlow, .topFix, .upperFix, .middleFix, .aboveDownFix, .bottomFix]
def HorizontalVane.all : List HorizontalVane :=
  [.auto, .leftRightFlow, .leftFlow, .middleFlow, .rightFlow, .leftFix, .leftMiddleFix, .middleFix, .rightMiddleFix, .rightFix]

/-- R93, R96: the nibble mask of a temperature position. -/
def NibblePos.mask : NibblePos → Byte
  | .lo => 0x0F
  | .hi => 0xF0

/-- R96: every mask of the table with its payload offset. -/
def FieldTable.claims (ft : FieldTable) : List (Nat × Byte) :=
  [(ft.power.off, ft.power.mask), (ft.display.off, ft.display.mask), (ft.buzzer.off, ft.buzzer.mask),
   (ft.eco.off, ft.eco.mask), (ft.heater8Degree.off, ft.heater8Degree.mask), (ft.health.off, ft.health.mask),
   (ft.sleepMode.off, ft.sleepMode.mask), (ft.mode.off, ft.mode.mask),
   (ft.windSpeed.offU, ft.windSpeed.maskU), (ft.windSpeed.offL, ft.windSpeed.maskL),
   (ft.verticalVane.offE, ft.verticalVane.maskE), (ft.verticalVane.offF, ft.verticalVane.bitF),
   (ft.horizontalVane.offE, ft.horizontalVane.maskE), (ft.horizontalVane.offF, ft.horizontalVane.bitF),
   (ft.temperature.offI, ft.temperature.posI.mask), (ft.temperature.offF, ft.temperature.posF.mask)]

/-- R95 WF1. -/
abbrev FieldTable.Placed (ft : FieldTable) (pLen : Nat) : Prop := ∀ c ∈ ft.claims, c.1 < pLen ∧ c.2 ≠ 0

/-- R96 WF2: no payload bit is controlled twice. -/
abbrev FieldTable.Disjoint (ft : FieldTable) : Prop :=
  ft.claims.Pairwise fun a b => a.1 = b.1 → a.2 &&& b.2 = 0

/-- R97 WF3. -/
abbrev FieldTable.BoolsOneBit (ft : FieldTable) : Prop :=
  ∀ e ∈ [ft.power, ft.display, ft.buzzer, ft.eco, ft.heater8Degree, ft.health], popcount e.mask = 1

/-- R98 WF4 for an enum entry. -/
abbrev EnumEntry.Legal {n : Nat} (e : EnumEntry n) : Prop :=
  e.enc.toList.Nodup ∧ (∀ c ∈ e.enc.toList ++ e.unassigned, c.toNat < 2 ^ popcount e.mask) ∧
  (∀ c ∈ e.unassigned, c ∉ e.enc.toList)

/-- R98 WF4 and R99 WF5 for the wind entry; selectors are 5 bits by their type. -/
abbrev WindEntry.Legal (e : WindEntry) : Prop :=
  e.enc.toList.Nodup ∧ (∀ c ∈ e.unassigned, c ∉ e.enc.toList) ∧
  popcount e.maskU = 2 ∧ popcount e.maskL = 3 ∧ e.offU ≠ e.offL

/-- R92: the pairs `(enc(v), flow(v))` in port-code order. -/
def VaneEntry.pairs {n : Nat} (e : VaneEntry n) : List (Byte × Bool) := e.enc.toList.zip e.flow.toList

/-- R92 `auto_flow`, the flow bit of Auto, port code 0. -/
def VaneEntry.autoFlow {n : Nat} (e : VaneEntry n) : Bool := e.flow.toList.headD false

/-- R100 WF6, all but the flow classes of R16. R92 has `enc` map each variant to a code of popcount(maskE) bits. -/
abbrev VaneEntry.Legal {n : Nat} (e : VaneEntry n) : Prop :=
  popcount e.bitF = 1 ∧ e.offF ≠ e.offE ∧ e.pairs.Nodup ∧
  (∀ c ∈ e.enc.toList ++ e.unassigned, c.toNat < 2 ^ popcount e.maskE) ∧
  (∀ c ∈ e.unassigned, (c, e.autoFlow) ∉ e.pairs)

/-- R100 WF6: `flow` is 1 for every flow-type variant and 0 for every fixed-position variant; Auto is left open. -/
abbrev FieldTable.FlowClasses (ft : FieldTable) : Prop :=
  (∀ v ∈ VerticalVane.all.tail, ft.verticalVane.flow[v.port] = v.isFlow) ∧
  (∀ v ∈ HorizontalVane.all.tail, ft.horizontalVane.flow[v.port] = v.isFlow)

/-- R102 WF8: mode, eco and buzzer share one byte. -/
abbrev FieldTable.SharedByte (ft : FieldTable) : Prop := ft.mode.off = ft.eco.off ∧ ft.eco.off = ft.buzzer.off

/-- WF1 to WF8 (R95 to R102), as one check. -/
def FieldTable.legal (ft : FieldTable) (pLen : Nat) : Bool :=
  decide (ft.Placed pLen) && decide ft.Disjoint && decide ft.BoolsOneBit && decide ft.sleepMode.Legal &&
  decide ft.mode.Legal && decide ft.windSpeed.Legal && decide ft.verticalVane.Legal && decide ft.horizontalVane.Legal &&
  decide ft.FlowClasses && decide (ft.temperature.offI ≠ ft.temperature.offF) && decide ft.SharedByte

/-- WF1 to WF8 (R95 to R102). -/
abbrev FieldTable.Legal (ft : FieldTable) (pLen : Nat) : Prop := ft.legal pLen = true

/-- R118: the fixture `FT_EX`, the spec's own invention for its test vectors and not the device's table. -/
def FieldTable.fixture : FieldTable where
  power := ⟨10, 0x20⟩
  display := ⟨10, 0x40⟩
  buzzer := ⟨10, 0x10⟩
  eco := ⟨10, 0x08⟩
  heater8Degree := ⟨11, 0x10⟩
  health := ⟨10, 0x80⟩
  sleepMode := ⟨14, 0x03, #v[0, 1, 2, 3], []⟩
  mode := ⟨10, 0x07, #v[1, 2, 3, 4, 0], []⟩
  windSpeed := ⟨13, 0xC0, 15, 0x07, #v[0b00000, 0b00001, 0b00010, 0b00011, 0b00100, 0b00101, 0b00110, 0b01000], [0b00111]⟩
  verticalVane := ⟨16, 0x0F, 13, 0x01, #v[0, 1, 2, 3, 9, 10, 11, 12, 13],
    #v[false, true, true, true, false, false, false, false, false], []⟩
  horizontalVane := ⟨16, 0xF0, 13, 0x02, #v[0, 1, 2, 3, 4, 9, 10, 11, 12, 13],
    #v[false, true, true, true, true, false, false, false, false, false], [15]⟩
  temperature := ⟨11, .lo, 12, .hi⟩

/-! ## The keepalive catalog -/

/-- R123: entry 0 of `KCAT`, `bb000104020100bd`. -/
def keepaliveK0Bytes : List Byte := [0xBB, 0x00, 0x01, 0x04, 0x02, 0x01, 0x00, 0xBD]

/-- R22, R123: the catalog; the id of an entry is its index. -/
def Config.kcat (c : Config) : List (List Byte) := keepaliveK0Bytes :: c.kcatMore

/-- R39: the bytes 1 and 2 of a frame that are a direction marker. -/
abbrev isDirectionPair (b1 b2 : Byte) : Prop := (b1 = 0x00 ∧ b2 = 0x01) ∨ (b1 = 0x01 ∧ b2 = 0x00)

/-- R123: what every catalog entry meets, but for being different from the others. -/
abbrev legalEntry (nMax : Nat) (e : List Byte) : Prop :=
  minFrameLen ≤ e.length ∧ e.length ≤ nMax ∧ byteAt e 0 = 0xBB ∧ isDirectionPair (byteAt e 1) (byteAt e 2) ∧
  (byteAt e 3 = 0x04 ∨ byteAt e 3 = 0x09 ∨ byteAt e 3 = 0x0A)

/-- R123: at most 256 entries, each legal, no two equal. -/
abbrev legalCatalog (nMax : Nat) (kcat : List (List Byte)) : Prop :=
  kcat.length ≤ 256 ∧ (∀ e ∈ kcat, legalEntry nMax e) ∧ kcat.Nodup

/-! ## The configuration -/

/-- R6: the legal configurations. -/
abbrev Config.Legal (c : Config) : Prop :=
  2 ≤ c.fracBits ∧ c.fracBits ≤ 10 ∧ c.nSs ≤ c.nMax ∧ c.nMax ≤ 255 ∧ legalCatalog c.nMax c.kcat ∧ c.ft.Legal c.pLen

/-- R6: an arbitrary legal Field Table for P_LEN = 30. The constant without a body ranges over all tables; where it is not a
legal one the fixture stands in, so the value ranges over exactly the legal tables. -/
def Config.someFieldTable : FieldTable :=
  if Config.openFieldTable.Legal 30 then Config.openFieldTable else FieldTable.fixture

/-- R6, R123: an arbitrary legal catalog beyond entry 0 for NMAX = 64. -/
def Config.someCatalog : List (List Byte) :=
  if legalCatalog 64 (keepaliveK0Bytes :: Config.openCatalog) then Config.openCatalog else []

/-- R6: the reference configuration, the defaults where the spec gives one and an arbitrary legal value where it says OPEN. -/
def Config.reference : Config where
  fracBits := 8
  pLen := 30
  nMax := 64
  ft := Config.someFieldTable
  kcatMore := Config.someCatalog
  hasFe := true
  latency := Config.openLatency
  attach := Config.openAttach

end Sys2Proof
end

