-- ==== Sys2Proof/Machine/State.lean ====
section
/-! DEFINITION. The state of the block as plain data: the configuration it was built with, the request port, the response
port, and the front-end registers of R25; the outcomes' reason types; and the state after reset. -/

namespace Sys2Proof.Machine

open Sys2Proof

/-! ## Codes -/

/-- R142: the status codes; 9 to 15 are never produced. -/
inductive Status
  | ok | outOfRange | malformedField | truncated | unknownCommand | malformed | illegalOp | badOperand | feOverflow
deriving DecidableEq, Repr

/-- R143: the Malformed reason codes 1 to 5. -/
inductive MalformedReason
  | tooShort | badMarker | badDirection | badLength | overflow
deriving DecidableEq, Repr

/-- R29: the kind codes 0 to 4; 5 to 7 are never produced. -/
inductive KindCode
  | none | recognizedConstant | stateSet | unknownCommand | malformed
deriving DecidableEq, Repr

/-- R14: adapter→unit and unit→adapter, codes 0 and 1 (R125). -/
inductive Direction
  | a2u | u2a
deriving DecidableEq, Repr

/-- R124 `FrameKind`. -/
inductive FrameKind
  | recognizedConstant (id : Byte)
  | stateSet (payload : List Byte)
  | unknownCommand (cmd : Byte)
  | malformed (reason : MalformedReason)
deriving DecidableEq, Repr

/-! ## Requests and responses -/

/-- R55: the operand buses. FRAME and PAYLOAD list their bytes from index 0; bytes not listed are 0x00 (`fitBytes`). -/
structure Buses where
  frame : List Byte
  len : Byte
  payload : List Byte
  state : Word
  temp : BitVec 16
  nib : Byte
deriving DecidableEq, Repr

/-- Every line low: what the buses hold where no request is in flight. -/
def Buses.quiet : Buses := ⟨[], 0, [], 0, 0, 0⟩

/-- R54: a request, one command word and the operand buses. -/
structure Request where
  cmd : Word
  bus : Buses
deriving DecidableEq, Repr

/-- The result of unpacking one field (spec file 42, section 5). -/
structure FieldResult where
  unrec : Bool
  code : Byte
  raw : Byte
  flow : Bool
deriving DecidableEq, Repr

/-- R126: the decoded-state image and the P_LEN-bit vector PADMAP. -/
structure DecodedState where
  dsi : Vector Byte 16
  padmap : List Bool
deriving DecidableEq, Repr

/-- R132: the result buses of DECF. -/
structure DecodedFrame where
  kind : KindCode
  aux : Byte
  dir : Direction
  csv : Bool
  hasState : Bool
  dsi : Vector Byte 16
  padmap : List Bool
deriving DecidableEq, Repr

/-- R56: the result of an `Ok` response, in the shape each operation's rule gives. -/
inductive Result
  /-- `Ok()`: FE_PUSH, FE_ABORT, FE_WR. -/
  | done
  /-- R_TQ: TQUANT, TDEC. -/
  | tq (v : BitVec 16)
  /-- R_NIB: TENC. -/
  | nib (v : Byte)
  /-- R_BYTE: CSUM, FE_EOF, FE_RD. -/
  | byte (v : Byte)
  /-- R_VALID, R_BYTE: CVER. -/
  | verdict (valid : Bool) (sum : Byte)
  /-- R_PAYLOAD: FPACK. -/
  | payload (p : List Byte)
  /-- R_UNREC, R_CODE, R_RAW, R_FLOW: FUNPACK. -/
  | field (r : FieldResult)
  /-- R_FRAME, R_LEN: ENCF. -/
  | frame (bytes : List Byte) (len : Byte)
  /-- R_KIND, R_AUX, R_PAYLOAD: CLS. -/
  | kind (k : KindCode) (aux : Byte) (p : List Byte)
  /-- R_DIR: DIR. -/
  | dir (d : Direction)
  /-- R_DSI, R_PADMAP: DECS. -/
  | state (d : DecodedState)
  /-- R_KIND, R_AUX, R_DIR, R_CSV, R_HAS_STATE, R_DSI, R_PADMAP: DECF. -/
  | decoded (d : DecodedFrame)
deriving DecidableEq, Repr

/-- R56: the status code and reason of an `Err` response, which carries no result. -/
structure Error where
  status : Status
  reason : Byte
deriving DecidableEq, Repr

/-- R56: exactly one response per request. -/
inductive Response
  | ok (r : Result)
  | err (e : Error)
deriving DecidableEq, Repr

/-! ## The front-end (R25) -/

/-- R25: the front-end state. -/
structure FrontEnd where
  rxbuf : List Byte
  rxcnt : Byte
  rxovf : Bool
  ctrl : BitVec 3
  lastKind : KindCode
  lastStatus : Status
  lastCmd : Byte
  lastId : Byte
  lastLen : Byte
  lastCsumValid : Bool
  lastDir : Direction
  lastDirValid : Bool
  lastSrfWritten : Bool
  seq : Byte
  srfValid : Bool
  srf : Vector Byte 16
deriving DecidableEq, Repr

/-- R37: the reset values. RXBUF's contents after reset are unspecified and unobservable; the model names 0x00 for each of
the NMAX bytes (DESIGN CHOICE, log entry 5). -/
def FrontEnd.reset (nMax : Nat) : FrontEnd where
  rxbuf := List.replicate nMax 0
  rxcnt := 0
  rxovf := false
  ctrl := 0b110
  lastKind := .none
  lastStatus := .ok
  lastCmd := 0
  lastId := 0
  lastLen := 0
  lastCsumValid := false
  lastDir := .a2u
  lastDirValid := false
  lastSrfWritten := false
  seq := 0
  srfValid := false
  srf := Vector.replicate 16 0

/-! ## The state -/

/-- The block between two of its atomic steps (R48, R160). -/
structure State where
  /-- R158: the configuration, which no request reads or changes as data and no reset changes. -/
  cfg : Config
  /-- R156: the reset input, asserted by the platform. -/
  rst : Bool
  /-- The hosts' requests not yet accepted, in the order of acceptance (R51, R152); the model's own field. -/
  waiting : List Request
  /-- R24: the command word of the request in flight, if one is. -/
  cmd : Option Word
  /-- R20: the operand buses as sampled when that request was accepted. -/
  bus : Buses
  /-- R20, R56: the response port, valid for the step in which the response is given. -/
  resp : Option Response
  /-- R25: the front-end registers. -/
  fe : FrontEnd
deriving DecidableEq, Repr

/-- Reasons a step can stop the machine. There are none: every error of the spec is a response to its request (R147), so this
type has no constructor, and that is safe. -/
inductive Fault
deriving DecidableEq, Repr

/-- Reasons a step can refuse. -/
inductive Refusal
  /-- Raised by an arm of `exec` whose instruction has no meaning yet; no arm is such. Safe: the machine stops. -/
  | notModelled (mnemonic : String)
deriving DecidableEq, Repr

/-- R156: the state right after reset of a block built with configuration `c`: no request in flight, no response, every
front-end register at its reset value. -/
def State.resetOf (c : Config) : State where
  cfg := c
  rst := false
  waiting := []
  cmd := none
  bus := Buses.quiet
  resp := none
  fe := FrontEnd.reset c.nMax

/-- The machine right after reset, in the reference configuration (R6). -/
def State.reset : State := State.resetOf Config.reference

end Sys2Proof.Machine
end

