-- ==== Sys2Proof/Machine/Flags.lean ====
section
/-! DEFINITION. The numeric codes of the result buses and registers (R29, R142, R143) and the composition of the front-end
status bytes (R27 to R29). The block has no condition codes (R23). -/

namespace Sys2Proof.Machine

open Sys2Proof

/-- R142: the 4-bit status code. -/
def Status.code : Status → BitVec 4
  | .ok => 0 | .outOfRange => 1 | .malformedField => 2 | .truncated => 3 | .unknownCommand => 4 | .malformed => 5
  | .illegalOp => 6 | .badOperand => 7 | .feOverflow => 8

/-- R143: the 8-bit Malformed reason code. -/
def MalformedReason.code : MalformedReason → Byte
  | .tooShort => 1 | .badMarker => 2 | .badDirection => 3 | .badLength => 4 | .overflow => 5

/-- R29: the 3-bit kind code. -/
def KindCode.code : KindCode → BitVec 3
  | .none => 0 | .recognizedConstant => 1 | .stateSet => 2 | .unknownCommand => 3 | .malformed => 4

/-- R125: direction codes. -/
def Direction.code : Direction → BitVec 1
  | .a2u => 0 | .u2a => 1

/-- R129: the kind code of a classification. -/
def FrameKind.kindCode : FrameKind → KindCode
  | .recognizedConstant _ => .recognizedConstant
  | .stateSet _ => .stateSet
  | .unknownCommand _ => .unknownCommand
  | .malformed _ => .malformed

/-- R128, R129: the auxiliary byte of a classification: catalog id, command byte, or Malformed reason. -/
def FrameKind.aux : FrameKind → Byte
  | .recognizedConstant id => id
  | .stateSet _ => 0x03
  | .unknownCommand cmd => cmd
  | .malformed r => r.code

/-- R27: the fields of FE_CTRL. -/
def FrontEnd.acceptBadCsum (fe : FrontEnd) : Bool := fe.ctrl.getLsbD 0
def FrontEnd.acceptA2u (fe : FrontEnd) : Bool := fe.ctrl.getLsbD 1
def FrontEnd.acceptU2a (fe : FrontEnd) : Bool := fe.ctrl.getLsbD 2

/-- R27: FE_CTRL; bits 7:3 read 0. -/
def FrontEnd.ctrlByte (fe : FrontEnd) : Byte := 0#5 ++ fe.ctrl

/-- R28: FE_STATUS; bits 7:6 read 0. -/
def FrontEnd.statusByte (fe : FrontEnd) : Byte :=
  0#2 ++ BitVec.ofBool fe.lastSrfWritten ++ BitVec.ofBool fe.rxovf ++ BitVec.ofBool fe.lastDirValid ++ fe.lastDir.code ++
    BitVec.ofBool fe.lastCsumValid ++ BitVec.ofBool fe.srfValid

/-- R29, R137: FE_LAST_KIND, `{LAST_STATUS[3:0], 0, LAST_KIND[2:0]}`. -/
def FrontEnd.kindByte (fe : FrontEnd) : Byte := fe.lastStatus.code ++ 0#1 ++ fe.lastKind.code

end Sys2Proof.Machine
end

