-- ==== Sys2Proof/Machine/Operands.lean ====
section
/-! DEFINITION. Every operand form: the frame and payload operands (R42, R55), the field id (R58), the fields of the STATE word
with their validity (R59 to R61), the temperature bus (R11) and the nibble byte (R62). -/

namespace Sys2Proof.Machine

open Sys2Proof

/-! ## Errors an operand can raise -/

/-- R142, R145: an operand outside its domain. -/
def badOperand : Error := ⟨.badOperand, 0⟩

/-- R72, R142: a temperature outside [16.0, 31.0] before quantization. -/
def outOfRange : Error := ⟨.outOfRange, 0⟩

/-- R142, R143: a frame with too few bytes, reason TOO_SHORT. -/
def truncated : Error := ⟨.truncated, MalformedReason.tooShort.code⟩

/-- R63, R145: an illegal command word. -/
def illegalOp : Error := ⟨.illegalOp, 0⟩

/-- R135: a byte pushed into a full receive buffer. -/
def feOverflow : Error := ⟨.feOverflow, 0⟩

/-! ## FRAME, LEN and PAYLOAD -/

/-- R42: bytes 0..LEN-1 of the FRAME bus, provided that LEN ≤ NMAX. -/
def frameOperand (c : Config) (b : Buses) : Except Error (List Byte) :=
  if c.nMax < b.len.toNat then .error badOperand else .ok (fitBytes b.len.toNat b.frame)

/-- R55: the P_LEN bytes of the PAYLOAD bus. -/
def payloadOperand (c : Config) (b : Buses) : List Byte := fitBytes c.pLen b.payload

/-! ## FID -/

/-- R58: the field a field id names; 12 to 15 name none. -/
def fieldOf (fid : BitVec 4) : Option Field :=
  match fid.toNat with
  | 0 => some .power
  | 1 => some .display
  | 2 => some .buzzer
  | 3 => some .eco
  | 4 => some .heater8Degree
  | 5 => some .health
  | 6 => some .sleepMode
  | 7 => some .mode
  | 8 => some .windSpeed
  | 9 => some .verticalVane
  | 10 => some .horizontalVane
  | 11 => some .targetTemperature
  | _ => none

/-- R58: the twelve fields in field-id order. -/
def allFields : List Field :=
  [.power, .display, .buzzer, .eco, .heater8Degree, .health, .sleepMode, .mode, .windSpeed, .verticalVane, .horizontalVane,
   .targetTemperature]

/-! ## The STATE word (R60) -/

/-- R60: bits 31:22 must be 0. -/
def stateReservedClear (st : Word) : Bool := st.extractLsb' 22 10 == 0

/-- R59, R60: the variant whose port code stands in bits 7:6; every code is a variant's. -/
def stateSleep (st : Word) : Option SleepMode := SleepMode.all[(st.extractLsb' 6 2).toNat]?

/-- R59, R60: bits 10:8; 5 to 7 are invalid. -/
def stateMode (st : Word) : Option Mode := Mode.all[(st.extractLsb' 8 3).toNat]?

/-- R59, R60: bits 13:11; every code is a variant's. -/
def stateWind (st : Word) : Option WindSpeed := WindSpeed.all[(st.extractLsb' 11 3).toNat]?

/-- R59, R60: bits 17:14; 9 to 15 are invalid. -/
def stateVerticalVane (st : Word) : Option VerticalVane := VerticalVane.all[(st.extractLsb' 14 4).toNat]?

/-- R59, R60: bits 21:18; 10 to 15 are invalid. -/
def stateHorizontalVane (st : Word) : Option HorizontalVane := HorizontalVane.all[(st.extractLsb' 18 4).toNat]?

/-- R61: a STATE word is valid for a field when its reserved bits are 0 and the field's port code is a variant's. The
temperature does not travel on STATE; for it only the reserved bits count (R115). -/
def stateValidFor (st : Word) (f : Field) : Bool :=
  stateReservedClear st &&
  match f with
  | .power | .display | .buzzer | .eco | .heater8Degree | .health | .targetTemperature => true
  | .sleepMode => (stateSleep st).isSome
  | .mode => (stateMode st).isSome
  | .windSpeed => (stateWind st).isSome
  | .verticalVane => (stateVerticalVane st).isSome
  | .horizontalVane => (stateHorizontalVane st).isSome

/-- R60: the STATE word of a `ClimateState`. -/
def stateWord (cs : ClimateState) : Word :=
  0#10 ++ BitVec.ofNat 4 cs.horizontalVane.port ++ BitVec.ofNat 4 cs.verticalVane.port ++ BitVec.ofNat 3 cs.windSpeed.port ++
    BitVec.ofNat 3 cs.mode.port ++ BitVec.ofNat 2 cs.sleepMode.port ++ BitVec.ofBool cs.health ++
    BitVec.ofBool cs.heater8Degree ++ BitVec.ofBool cs.eco ++ BitVec.ofBool cs.buzzer ++ BitVec.ofBool cs.display ++
    BitVec.ofBool cs.power

/-- R11: the TEMP bus value of a temperature in quarter degrees, `t = tq << (F-2)`. -/
def tempWord (fracBits quarters : Nat) : BitVec 16 := BitVec.ofNat 16 (quarters * 2 ^ (fracBits - 2))

/-! ## TEMP and NIB -/

/-- R71, R77: `quantize` in quarter degrees, `floor(4 * t / 2^F)`, the arithmetic right shift of TEMP by F - 2. -/
def quantizeTemp (fracBits : Nat) (temp : BitVec 16) : Int := temp.toInt >>> (fracBits - 2)

/-- R72: `16.0 ≤ c ≤ 31.0`, tested before quantization. -/
def tempInRange (fracBits : Nat) (temp : BitVec 16) : Bool :=
  (16 * 2 ^ fracBits : Int) ≤ temp.toInt && temp.toInt ≤ (31 * 2 ^ fracBits : Int)

/-- R62: T_INT and T_FRAC of a NIB byte. -/
def nibInt (nib : Byte) : BitVec 4 := nib.extractLsb' 4 4
def nibFrac (nib : Byte) : BitVec 4 := nib.extractLsb' 0 4

end Sys2Proof.Machine
end

