-- ==== Sys2Proof/Machine/Ops.lean ====
section
/-! DEFINITION. The shared operations over the ports and the front-end registers: giving a response, raising an error (the
block's only exception mechanism, R147), accepting a request, reset, and the accesses to RXBUF and the register space. -/

namespace Sys2Proof.Machine

open Sys2Proof

/-! ## The ports -/

/-- R24, R56: give the response of the request in flight, which ends it; the operand buses keep nothing (R20). -/
def State.respond (s : State) (r : Response) : State :=
  { s with cmd := none, bus := Buses.quiet, resp := some r }

/-- R10 `return Ok(r)`. -/
def State.returnOk (s : State) (r : Result) : Host.Outcome State Fault Refusal := .next (s.respond (.ok r))

/-- R10 `raise E(info)`, R144, R147: an error ends its request with an `Err` response and changes nothing else; the block is
at once ready again, saves no cause or address, and changes no mode, so there is no return from it. -/
def State.raise (s : State) (e : Error) : Host.Outcome State Fault Refusal := .next (s.respond (.err e))

/-- R56: the response an operation's result or error makes. -/
def responseOf : Except Error Result → Response
  | .ok r => .ok r
  | .error e => .err e

/-- The end of an operation that changes no state but for the response: `return Ok(r)` or `raise E(info)` (R10). -/
def State.answer (s : State) (a : Except Error Result) : Host.Outcome State Fault Refusal := .next (s.respond (responseOf a))

/-- R20, R24: take the next request in flight, its operand buses sampled; the last response is no longer valid. -/
def State.accept (s : State) (r : Request) (rest : List Request) : State :=
  { s with waiting := rest, cmd := some r.cmd, bus := r.bus, resp := none }

/-- R154: nothing in flight and nothing waiting; only the last response ceases to be valid (R20). -/
def State.idle (s : State) : State := { s with resp := none }

/-- R156, R157: the reset input is asserted: the request in flight is dropped without a response, the front-end registers take
their reset values, the configuration stays. Requests not yet accepted stay with their hosts. -/
def State.assertReset (s : State) : State :=
  { s with rst := false, cmd := none, bus := Buses.quiet, resp := none, fe := FrontEnd.reset s.cfg.nMax }

/-! ## The front-end -/

/-- Replace the front-end registers. -/
def State.setFe (s : State) (fe : FrontEnd) : State := { s with fe := fe }

/-- R57, R63, R146: the front-end operations are illegal where HAS_FE is false. -/
def State.ifFrontEnd (s : State) (k : Host.Outcome State Fault Refusal) : Host.Outcome State Fault Refusal :=
  if s.cfg.hasFe then k else s.raise illegalOp

/-- R135: `RXBUF[RXCNT] <- D; RXCNT <- RXCNT + 1`. -/
def FrontEnd.pushByte (fe : FrontEnd) (d : Byte) : FrontEnd :=
  { fe with rxbuf := fe.rxbuf.set fe.rxcnt.toNat d, rxcnt := fe.rxcnt + 1 }

/-- R135: the byte is discarded and RXOVF set. -/
def FrontEnd.overflow (fe : FrontEnd) : FrontEnd := { fe with rxovf := true }

/-- R138: `RXCNT <- 0; RXOVF <- 0`. -/
def FrontEnd.clearRx (fe : FrontEnd) : FrontEnd := { fe with rxcnt := 0, rxovf := false }

/-- R38(d): the valid bytes RXBUF[0..RXCNT-1]. -/
def FrontEnd.received (fe : FrontEnd) : List Byte := fe.rxbuf.take fe.rxcnt.toNat

/-- R140: `CTRL <- D[2:0]`. -/
def FrontEnd.setCtrl (fe : FrontEnd) (d : Byte) : FrontEnd := { fe with ctrl := d.extractLsb' 0 3 }

/-- R26: the byte at a front-end register address; `none` at a reserved address (R36). -/
def FrontEnd.readReg (fe : FrontEnd) (a : Byte) : Option Byte :=
  match a.toNat with
  | 0x00 => some fe.ctrlByte
  | 0x01 => some fe.statusByte
  | 0x02 => some fe.kindByte
  | 0x03 => some fe.lastCmd
  | 0x04 => some fe.lastId
  | 0x05 => some fe.seq
  | 0x06 => some fe.rxcnt
  | 0x07 => some fe.lastLen
  | n => if 0x10 ≤ n ∧ n ≤ 0x1F then fe.srf[n - 0x10]? else none

end Sys2Proof.Machine
end

