-- ==== Sys2Proof/Machine/Checksum.lean ====
section
/-! DEFINITION. The Checksum Unit (spec file 41): CSUM, CVER. -/

namespace Sys2Proof.Machine

open Sys2Proof

/-- R84: the XOR of the frame operand. -/
def csumAnswer (c : Config) (b : Buses) : Except Error Result :=
  match frameOperand c b with
  | .error e => .error e
  | .ok frame => .ok (.byte (xorFold frame))

/-- R85: the verdict on the trailing checksum, and the checksum computed. -/
def cverAnswer (c : Config) (b : Buses) : Except Error Result :=
  match frameOperand c b with
  | .error e => .error e
  | .ok frame =>
    if frame.isEmpty then .error truncated
    else .ok (.verdict (verifyFrame frame) (xorFold frame.dropLast))

/-- R84 CSUM. -/
def execCsum (s : State) : Host.Outcome State Fault Refusal := s.answer (csumAnswer s.cfg s.bus)

/-- R85 CVER. -/
def execCver (s : State) : Host.Outcome State Fault Refusal := s.answer (cverAnswer s.cfg s.bus)

end Sys2Proof.Machine
end

