-- ==== Sys2Proof/Machine/Temperature.lean ====
section
/-! DEFINITION. The Temperature Codec (spec file 40): TQUANT, TENC, TDEC. -/

namespace Sys2Proof.Machine

open Sys2Proof

/-- R74, R78: T_INT and T_FRAC of a temperature, or OUT_OF_RANGE. -/
def encodeTemp (fracBits : Nat) (temp : BitVec 16) : Except Error (BitVec 4 × BitVec 4) :=
  if tempInRange fracBits temp then
    let tq := quantizeTemp fracBits temp
    .ok (BitVec.ofInt 4 (31 - (tq >>> 2)), BitVec.ofInt 4 (4 * (tq % 4)))
  else .error outOfRange

/-- R73: the fraction nibbles of the table. -/
def fracInTable (tFrac : BitVec 4) : Bool := tFrac == 0x0 || tFrac == 0x4 || tFrac == 0x8 || tFrac == 0xC

/-- R75, R79: the temperature of a nibble pair in quarter degrees; `none` where T_FRAC is not in the table. -/
def decodeTemp (tInt tFrac : BitVec 4) : Option Nat :=
  if fracInTable tFrac then some (4 * (31 - tInt.toNat) + tFrac.toNat / 4) else none

/-- R79: MalformedFieldError of the temperature, reason 11, its field id (R143). -/
def malformedTemperature : Error := ⟨.malformedField, 11⟩

/-- R77 TQUANT. -/
def execTquant (s : State) : Host.Outcome State Fault Refusal :=
  s.returnOk (.tq (BitVec.ofInt 16 (quantizeTemp s.cfg.fracBits s.bus.temp)))

/-- R78 TENC. -/
def execTenc (s : State) : Host.Outcome State Fault Refusal :=
  s.answer (match encodeTemp s.cfg.fracBits s.bus.temp with
    | .ok (tInt, tFrac) => .ok (.nib (tInt ++ tFrac))
    | .error e => .error e)

/-- R79 TDEC. -/
def execTdec (s : State) : Host.Outcome State Fault Refusal :=
  s.answer (match decodeTemp (nibInt s.bus.nib) (nibFrac s.bus.nib) with
    | some tq => .ok (.tq (BitVec.ofNat 16 tq))
    | none => .error malformedTemperature)

end Sys2Proof.Machine
end

