-- ==== Sys2Proof/Machine/Fields.lean ====
section
/-! DEFINITION. The bit-field packer and unpacker driven by the Field Table (spec file 42): FPACK, FUNPACK, and the reserved-bit
map. -/

namespace Sys2Proof.Machine

open Sys2Proof

/-! ## Packing (R103 to R108): each takes a payload and ORs a field's bits into it -/

/-- R104. -/
def packBool (e : BoolEntry) (value : Bool) (p : List Byte) : List Byte :=
  if value then orAt p e.off e.mask else p

/-- R105, for the variant with port code `v`. -/
def packEnum {n : Nat} (e : EnumEntry n) (v : Fin n) (p : List Byte) : List Byte := orAt p e.off (pdep e.enc[v] e.mask)

/-- R106: `sel[4:3]` at offU, `sel[2:0]` at offL. -/
def packWind (e : WindEntry) (v : Fin 8) (p : List Byte) : List Byte :=
  let sel := e.enc[v]
  orAt (orAt p e.offU (pdep ((sel.extractLsb' 3 2).setWidth 8) e.maskU))
    e.offL (pdep ((sel.extractLsb' 0 3).setWidth 8) e.maskL)

/-- R107. -/
def packVane {n : Nat} (e : VaneEntry n) (v : Fin n) (p : List Byte) : List Byte :=
  let q := orAt p e.offE (pdep e.enc[v] e.maskE)
  if e.flow[v] then orAt q e.offF e.bitF else q

/-- R93: a nibble in its position within a byte. -/
def placeNibble (pos : NibblePos) (x : BitVec 4) : Byte :=
  match pos with
  | .lo => 0#4 ++ x
  | .hi => x ++ 0#4

/-- R108. -/
def packTemp (e : TempEntry) (tInt tFrac : BitVec 4) (p : List Byte) : List Byte :=
  orAt (orAt p e.offI (placeNibble e.posI tInt)) e.offF (placeNibble e.posF tFrac)

/-- A packer given the variant a STATE field names, or BAD_OPERAND where it names none (R61). -/
def packVariant {α : Type} (v : Option α) (pack : α → List Byte) : Except Error (List Byte) :=
  match v with
  | some x => .ok (pack x)
  | none => .error badOperand

/-- R115: pack one field of (STATE, TEMP) into the all-zero payload. -/
def packField (c : Config) (st : Word) (temp : BitVec 16) (f : Field) : Except Error (List Byte) :=
  let z := zeroBytes c.pLen
  if !stateReservedClear st then .error badOperand
  else match f with
    | .power => .ok (packBool c.ft.power (st.getLsbD 0) z)
    | .display => .ok (packBool c.ft.display (st.getLsbD 1) z)
    | .buzzer => .ok (packBool c.ft.buzzer (st.getLsbD 2) z)
    | .eco => .ok (packBool c.ft.eco (st.getLsbD 3) z)
    | .heater8Degree => .ok (packBool c.ft.heater8Degree (st.getLsbD 4) z)
    | .health => .ok (packBool c.ft.health (st.getLsbD 5) z)
    | .sleepMode => packVariant (stateSleep st) fun v => packEnum c.ft.sleepMode v.port z
    | .mode => packVariant (stateMode st) fun v => packEnum c.ft.mode v.port z
    | .windSpeed => packVariant (stateWind st) fun v => packWind c.ft.windSpeed v.port z
    | .verticalVane => packVariant (stateVerticalVane st) fun v => packVane c.ft.verticalVane v.port z
    | .horizontalVane => packVariant (stateHorizontalVane st) fun v => packVane c.ft.horizontalVane v.port z
    | .targetTemperature =>
      match encodeTemp c.fracBits temp with
      | .ok (tInt, tFrac) => .ok (packTemp c.ft.temperature tInt tFrac z)
      | .error e => .error e

/-! ## Unpacking (R109 to R113) -/

/-- R109. -/
def unpackBool (e : BoolEntry) (p : List Byte) : FieldResult :=
  let v := byteAt p e.off &&& e.mask != 0
  ⟨false, (BitVec.ofBool v).setWidth 8, (BitVec.ofBool v).setWidth 8, false⟩

/-- R110: the lookup of the wire code `r` among the codes of the variants, in port-code order, then among the patterns that
decode to the default. -/
def lookupCode {w : Nat} (codes unassigned : List (BitVec w)) (dflt : Byte) (r : BitVec w) (raw : Byte) : FieldResult :=
  match codes.idxOf? r with
  | some v => ⟨false, BitVec.ofNat 8 v, raw, false⟩
  | none => if r ∈ unassigned then ⟨false, dflt, raw, false⟩ else ⟨true, 0, raw, false⟩

/-- R110, with the port code of the field's default (R94). -/
def unpackEnum {n : Nat} (e : EnumEntry n) (dflt : Fin n) (p : List Byte) : FieldResult :=
  let r := pext (byteAt p e.off) e.mask
  lookupCode e.enc.toList e.unassigned (BitVec.ofNat 8 dflt) r r

/-- R91, R111: `sel = {upper2, lower3}`; the default is Auto. -/
def unpackWind (e : WindEntry) (p : List Byte) : FieldResult :=
  let sel : BitVec 5 :=
    (pext (byteAt p e.offU) e.maskU).setWidth 2 ++ (pext (byteAt p e.offL) e.maskL).setWidth 3
  lookupCode e.enc.toList e.unassigned (BitVec.ofNat 8 WindSpeed.auto.port) sel (sel.setWidth 8)

/-- R112: the pair of enum bits and flow bit must be a variant's, or an unassigned code with Auto's flow bit. -/
def unpackVane {n : Nat} (e : VaneEntry n) (p : List Byte) : FieldResult :=
  let r := pext (byteAt p e.offE) e.maskE
  let f := byteAt p e.offF &&& e.bitF != 0
  match e.pairs.idxOf? (r, f) with
  | some v => ⟨false, BitVec.ofNat 8 v, r, f⟩
  | none => if r ∈ e.unassigned ∧ f = e.autoFlow then ⟨false, 0, r, f⟩ else ⟨true, 0, r, f⟩

/-- R93: the nibble in a position of a byte. -/
def nibbleAt (pos : NibblePos) (b : Byte) : BitVec 4 :=
  match pos with
  | .lo => b.extractLsb' 0 4
  | .hi => b.extractLsb' 4 4

/-- R113: TDEC, with its MalformedFieldError turned into Unrecognized. -/
def unpackTemp (e : TempEntry) (p : List Byte) : FieldResult :=
  let tInt := nibbleAt e.posI (byteAt p e.offI)
  let tFrac := nibbleAt e.posF (byteAt p e.offF)
  match decodeTemp tInt tFrac with
  | some tq => ⟨false, BitVec.ofNat 8 tq, tInt ++ tFrac, false⟩
  | none => ⟨true, 0, tInt ++ tFrac, false⟩

/-- R94, R109 to R113: unpack one field of a payload. -/
def unpackField (ft : FieldTable) (p : List Byte) : Field → FieldResult
  | .power => unpackBool ft.power p
  | .display => unpackBool ft.display p
  | .buzzer => unpackBool ft.buzzer p
  | .eco => unpackBool ft.eco p
  | .heater8Degree => unpackBool ft.heater8Degree p
  | .health => unpackBool ft.health p
  | .sleepMode => unpackEnum ft.sleepMode SleepMode.off.port p
  | .mode => unpackEnum ft.mode Mode.auto.port p
  | .windSpeed => unpackWind ft.windSpeed p
  | .verticalVane => unpackVane ft.verticalVane p
  | .horizontalVane => unpackVane ft.horizontalVane p
  | .targetTemperature => unpackTemp ft.temperature p

/-- R114 `CTRL_MASK[i]`: the OR of every mask at payload offset `i`. -/
def ctrlMask (ft : FieldTable) (i : Nat) : Byte :=
  ft.claims.foldl (fun m c => if c.1 = i then m ||| c.2 else m) 0

/-- R114 `PADMAP[i]` for i in 0..P_LEN-1. -/
def padMap (ft : FieldTable) (pLen : Nat) (p : List Byte) : List Bool :=
  (List.range pLen).map fun i => byteAt p i &&& ~~~ ctrlMask ft i != 0

/-! ## The operations -/

/-- R115 FPACK. -/
def execFpack (fid : BitVec 4) (s : State) : Host.Outcome State Fault Refusal :=
  s.answer (match fieldOf fid with
    | none => .error badOperand
    | some f =>
      match packField s.cfg s.bus.state s.bus.temp f with
      | .ok p => .ok (.payload p)
      | .error e => .error e)

/-- R116 FUNPACK. -/
def execFunpack (fid : BitVec 4) (s : State) : Host.Outcome State Fault Refusal :=
  s.answer (match fieldOf fid with
    | none => .error badOperand
    | some f => .ok (.field (unpackField s.cfg.ft (payloadOperand s.cfg s.bus) f)))

end Sys2Proof.Machine
end

