-- ==== Sys2Proof/Machine/Encoder.lean ====
section
/-! DEFINITION. The Frame Encoder (spec file 43): ENCF. -/

namespace Sys2Proof.Machine

open Sys2Proof

/-- R121: the OR of the packs of all twelve fields over the all-zero payload (R119). -/
def packAll (c : Config) (st : Word) (temp : BitVec 16) : Except Error (List Byte) :=
  allFields.foldlM (fun p f =>
    match packField c st temp f with
    | .ok q => .ok (orBytes p q)
    | .error e => .error e) (zeroBytes c.pLen)

/-- R120: the header bytes of an encoded frame, adapter→unit and state-set. -/
def encoderHeader : List Byte := [0xBB, 0x00, 0x01, 0x03]

/-- R121: header, payload, and the XOR of both. -/
def sealFrame (payload : List Byte) : List Byte :=
  encoderHeader ++ payload ++ [xorFold (encoderHeader ++ payload)]

/-- R121: every field's validity first, then the temperature's range, then the frame. -/
def encodeFrame (c : Config) (st : Word) (temp : BitVec 16) : Except Error (List Byte) :=
  if !allFields.all (stateValidFor st) then .error badOperand
  else if !tempInRange c.fracBits temp then .error outOfRange
  else
    match packAll c st temp with
    | .ok p => .ok (sealFrame p)
    | .error e => .error e

/-- R121 ENCF. -/
def execEncf (s : State) : Host.Outcome State Fault Refusal :=
  s.answer (match encodeFrame s.cfg s.bus.state s.bus.temp with
    | .ok frame => .ok (.frame frame (BitVec.ofNat 8 s.cfg.nSs))
    | .error e => .error e)

end Sys2Proof.Machine
end

