-- ==== Sys2Proof/Machine/Decoder.lean ====
section
/-! DEFINITION. The Frame Classifier and the Frame Decoder (spec file 44): CLS, DIR, DECS, DECF. -/

namespace Sys2Proof.Machine

open Sys2Proof

/-- R124 `classify(frame, n)`, its tests in the rule's order. -/
def classify (c : Config) (frame : List Byte) : FrameKind :=
  match c.kcat.idxOf? frame with
  | some id => .recognizedConstant (BitVec.ofNat 8 id)
  | none =>
    if frame.length < minFrameLen then .malformed .tooShort
    else if byteAt frame 0 ≠ 0xBB then .malformed .badMarker
    else if ¬ isDirectionPair (byteAt frame 1) (byteAt frame 2) then .malformed .badDirection
    else if byteAt frame 3 = 0x03 then
      if frame.length < c.nSs then .malformed .tooShort
      else if c.nSs < frame.length then .malformed .badLength
      else .stateSet ((frame.drop 4).take c.pLen)
    else .unknownCommand (byteAt frame 3)

/-- R125 `direction(frame, n)`; byte 0 is not examined. -/
def frameDirection (frame : List Byte) : Option Direction :=
  if frame.length < 3 then none
  else if byteAt frame 1 = 0x00 ∧ byteAt frame 2 = 0x01 then some .a2u
  else if byteAt frame 1 = 0x01 ∧ byteAt frame 2 = 0x00 then some .u2a
  else none

/-- R126: a code byte of the DSI, UNREC in bit 7. -/
def codeByte (r : FieldResult) : Byte := BitVec.ofBool r.unrec ++ r.code.setWidth 7

/-- R126: byte 0 of the DSI, the six bool fields. -/
def boolsByte (ft : FieldTable) (p : List Byte) : Byte :=
  let bit (f : Field) : BitVec 1 := (unpackField ft p f).code.setWidth 1
  0#2 ++ bit .health ++ bit .heater8Degree ++ bit .eco ++ bit .buzzer ++ bit .display ++ bit .power

/-- R126: byte 14 of the DSI, the flow bits of the vanes. -/
def flowByte (vertical horizontal : FieldResult) : Byte :=
  0#6 ++ BitVec.ofBool horizontal.flow ++ BitVec.ofBool vertical.flow

/-- R126: byte 15 of the DSI: bit 0 whether any PADMAP bit is set, bits 7:1 how many, at most 127. -/
def padByte (padmap : List Bool) : Byte :=
  BitVec.ofNat 7 (min (padmap.count true) 127) ++ BitVec.ofBool (padmap.any id)

/-- R126, R127: unpack the twelve fields, compute PADMAP, assemble the DSI. It always succeeds. -/
def decodeState (c : Config) (p : List Byte) : DecodedState :=
  let sleep := unpackField c.ft p .sleepMode
  let mode := unpackField c.ft p .mode
  let wind := unpackField c.ft p .windSpeed
  let vertical := unpackField c.ft p .verticalVane
  let horizontal := unpackField c.ft p .horizontalVane
  let temp := unpackField c.ft p .targetTemperature
  let padmap := padMap c.ft c.pLen p
  { dsi := #v[boolsByte c.ft p, codeByte sleep, codeByte mode, codeByte wind, codeByte vertical, codeByte horizontal,
      codeByte temp, 0x00, sleep.raw, mode.raw, wind.raw, vertical.raw, horizontal.raw, temp.raw,
      flowByte vertical horizontal, padByte padmap]
    padmap := padmap }

/-- R128: the DSI and PADMAP of a frame that carries no state. -/
def noState (c : Config) : DecodedState := ⟨Vector.replicate 16 0, List.replicate c.pLen false⟩

/-- R128: the result buses of DECF for a frame that is not Malformed, with the decoded state `d`. The direction is defined for
every such frame; where the Lean function needs a value for a frame without one, it takes adapter→unit, a case that a legal
catalog excludes (R123). -/
def frameResult (c : Config) (frame : List Byte) (hasState : Bool) (d : DecodedState) : DecodedFrame where
  kind := (classify c frame).kindCode
  aux := (classify c frame).aux
  dir := (frameDirection frame).getD .a2u
  csv := verifyFrame frame
  hasState := hasState
  dsi := d.dsi
  padmap := d.padmap

/-- R128 `decode_frame(frame, n)`. -/
def decodeFrame (c : Config) (frame : List Byte) : Except Error DecodedFrame :=
  match classify c frame with
  | .malformed .tooShort => .error truncated
  | .malformed r => .error ⟨.malformed, r.code⟩
  | .stateSet p => .ok (frameResult c frame true (decodeState c p))
  | .recognizedConstant _ => .ok (frameResult c frame false (noState c))
  | .unknownCommand _ => .ok (frameResult c frame false (noState c))

/-- R129: kind, auxiliary byte, and the payload of a state-set frame or zeros. -/
def clsResult (c : Config) (frame : List Byte) : Result :=
  let k := classify c frame
  .kind k.kindCode k.aux (match k with
    | .stateSet p => p
    | .recognizedConstant _ | .unknownCommand _ | .malformed _ => zeroBytes c.pLen)

/-- R129 CLS. -/
def execCls (s : State) : Host.Outcome State Fault Refusal :=
  s.answer (match frameOperand s.cfg s.bus with
    | .error e => .error e
    | .ok frame => .ok (clsResult s.cfg frame))

/-- R130: the direction of a frame operand, TRUNCATED below three bytes, MALFORMED(BAD_DIRECTION) for another pair. -/
def dirAnswer (frame : List Byte) : Except Error Result :=
  if frame.length < 3 then .error truncated
  else match frameDirection frame with
    | some d => .ok (.dir d)
    | none => .error ⟨.malformed, MalformedReason.badDirection.code⟩

/-- R130 DIR. -/
def execDir (s : State) : Host.Outcome State Fault Refusal :=
  s.answer (match frameOperand s.cfg s.bus with
    | .error e => .error e
    | .ok frame => dirAnswer frame)

/-- R131 DECS. -/
def execDecs (s : State) : Host.Outcome State Fault Refusal :=
  s.returnOk (.state (decodeState s.cfg (payloadOperand s.cfg s.bus)))

/-- R132: the answer of DECF to a frame operand. -/
def decfAnswer (c : Config) (frame : List Byte) : Except Error Result :=
  match decodeFrame c frame with
  | .ok d => .ok (.decoded d)
  | .error e => .error e

/-- R132 DECF. -/
def execDecf (s : State) : Host.Outcome State Fault Refusal :=
  s.answer (match frameOperand s.cfg s.bus with
    | .error e => .error e
    | .ok frame => decfAnswer s.cfg frame)

end Sys2Proof.Machine
end

