-- ==== Sys2Proof/Machine/Frames.lean ====
section
/-! DEFINITION. The frame rows of the opcode table (R65): what the block answers when a DECF request hands it such a frame. The
row fixes the header; the length tests, the catalog and the checksum are those of R124 and R128. -/

namespace Sys2Proof.Machine

open Sys2Proof

/-- R132 on the whole frame of a row; a frame that does not fit the FRAME bus has a LEN above NMAX (R42). -/
def runFrame (frame : List Byte) (s : State) : Host.Outcome State Fault Refusal :=
  s.answer (if s.cfg.nMax < frame.length then .error badOperand else decfAnswer s.cfg frame)

/-- R123: the frame `bb000104020100bd`. -/
def execKeepaliveK0 (s : State) : Host.Outcome State Fault Refusal := runFrame keepaliveK0Bytes s

/-- R124: a frame with header `bb000103`. -/
def execStatesetA2u (rest : List Byte) (s : State) : Host.Outcome State Fault Refusal :=
  runFrame ([0xBB, 0x00, 0x01, 0x03] ++ rest) s

/-- R124: a frame with header `bb010003`. -/
def execStatesetU2a (rest : List Byte) (s : State) : Host.Outcome State Fault Refusal :=
  runFrame ([0xBB, 0x01, 0x00, 0x03] ++ rest) s

/-- R66: a frame with header `bb0001` and another command byte. -/
def execUnknownA2u (cmd : Byte) (rest : List Byte) (s : State) : Host.Outcome State Fault Refusal :=
  runFrame ([0xBB, 0x00, 0x01, cmd] ++ rest) s

/-- R66: a frame with header `bb0100` and another command byte. -/
def execUnknownU2a (cmd : Byte) (rest : List Byte) (s : State) : Host.Outcome State Fault Refusal :=
  runFrame ([0xBB, 0x01, 0x00, cmd] ++ rest) s

end Sys2Proof.Machine
end

