-- ==== Sys2Proof/Machine/FrontEndOps.lean ====
section
/-! DEFINITION. The front-end stage (spec file 45): FE_PUSH, FE_EOF, FE_ABORT, FE_RD, FE_WR. -/

namespace Sys2Proof.Machine

open Sys2Proof

/-- R135 FE_PUSH. -/
def execFePush (d : Byte) (s : State) : Host.Outcome State Fault Refusal :=
  s.ifFrontEnd (
    if s.fe.rxcnt.toNat < s.cfg.nMax then (s.setFe (s.fe.pushByte d)).returnOk .done
    else (s.setFe s.fe.overflow).raise feOverflow)

/-- R137: kind, id and status of a frame that ended, and the DSI where it is a state-set frame. -/
structure FrameCodes where
  kind : KindCode
  id : Byte
  status : Status
  dsi : Option (Vector Byte 16)
deriving DecidableEq, Repr

/-- What FE_EOF finds out about the frame it ends (R137); `written` is the image it writes to the SRF, if any (R136). -/
structure FrameEnd where
  codes : FrameCodes
  csv : Bool
  dir : Option Direction
  written : Option (Vector Byte 16)
deriving DecidableEq, Repr

/-- R136: the direction of the frame is accepted by FE_CTRL. -/
def FrontEnd.acceptsDir (fe : FrontEnd) : Direction → Bool
  | .a2u => fe.acceptA2u
  | .u2a => fe.acceptU2a

/-- R136: the direction and the checksum verdict are accepted by FE_CTRL. -/
def FrontEnd.accepts (fe : FrontEnd) (dir : Direction) (csv : Bool) : Bool :=
  fe.acceptsDir dir && (csv || fe.acceptBadCsum)

/-- R137: the codes of a frame that did not overflow, from DECF's response to it. -/
def frameEndCodes : Except Error DecodedFrame → FrameCodes
  | .error e =>
    { kind := .malformed
      id := e.reason
      status := if e.status = .truncated then .truncated else .malformed
      dsi := none }
  | .ok d =>
    { kind := d.kind
      id := if d.kind = .recognizedConstant then d.aux else 0
      status := if d.kind = .unknownCommand then .unknownCommand else .ok
      dsi := if d.kind = .stateSet then some d.dsi else none }

/-- R137: the codes of a frame that overflowed the receive buffer. -/
def overflowCodes : FrameCodes := ⟨.malformed, MalformedReason.overflow.code, .feOverflow, none⟩

/-- R136, R137: everything FE_EOF derives from the receive buffer. -/
def frameEnd (c : Config) (fe : FrontEnd) : FrameEnd :=
  if fe.rxovf then ⟨overflowCodes, false, none, none⟩
  else
    let frame := fe.received
    let codes := frameEndCodes (decodeFrame c frame)
    let csv := verifyFrame frame
    let dir := frameDirection frame
    ⟨codes, csv, dir, if fe.accepts (dir.getD .a2u) csv then codes.dsi else none⟩

/-- R137: all register updates of FE_EOF, as one. -/
def FrontEnd.endFrame (c : Config) (fe : FrontEnd) : FrontEnd :=
  let r := frameEnd c fe
  { fe with
    rxcnt := 0
    rxovf := false
    lastKind := r.codes.kind
    lastStatus := r.codes.status
    lastCmd := if 4 ≤ fe.rxcnt.toNat then byteAt fe.rxbuf 3 else 0
    lastId := r.codes.id
    lastLen := fe.rxcnt
    lastCsumValid := r.csv
    lastDir := r.dir.getD .a2u
    lastDirValid := r.dir.isSome
    lastSrfWritten := r.written.isSome
    seq := fe.seq + 1
    srfValid := fe.srfValid || r.written.isSome
    srf := r.written.getD fe.srf }

/-- R137 FE_EOF; it responds with the new FE_LAST_KIND value. -/
def execFeEof (s : State) : Host.Outcome State Fault Refusal :=
  s.ifFrontEnd (
    let fe := s.fe.endFrame s.cfg
    (s.setFe fe).returnOk (.byte fe.kindByte))

/-- R138 FE_ABORT. -/
def execFeAbort (s : State) : Host.Outcome State Fault Refusal :=
  s.ifFrontEnd ((s.setFe s.fe.clearRx).returnOk .done)

/-- R139 FE_RD. -/
def execFeRd (a : Byte) (s : State) : Host.Outcome State Fault Refusal :=
  s.ifFrontEnd (s.answer (match s.fe.readReg a with
    | some v => .ok (.byte v)
    | none => .error badOperand))

/-- R140 FE_WR; only FE_CTRL is writable. -/
def execFeWr (a d : Byte) (s : State) : Host.Outcome State Fault Refusal :=
  s.ifFrontEnd (
    if a = 0x00 then (s.setFe (s.fe.setCtrl d)).returnOk .done
    else s.raise badOperand)

end Sys2Proof.Machine
end

