-- ==== Sys2Proof/Syntax.lean ====
section
/-! DEFINITION. One constructor per row of spec/opcode_table.json: the seventeen requests of R57 and the five frame rows of
R65. -/

namespace Sys2Proof

/-- An instruction. The request rows carry the fields of the command word they use (R54); what else they read stands on the
operand buses (R55). The frame rows are the frames that the Frame Classifier tells apart by their header (R65): such a row
carries what its header leaves free and the bytes after the header. -/
inductive Instr
  | tquant
  | tenc
  | tdec
  | csum
  | cver
  | fpack (fid : BitVec 4)
  | funpack (fid : BitVec 4)
  | encf
  | cls
  | dir
  | decs
  | decf
  | fePush (d : Byte)
  | feEof
  | feAbort
  | feRd (a : Byte)
  | feWr (a d : Byte)
  /-- The whole frame `bb000104020100bd` (R123). -/
  | keepaliveK0
  /-- Header `bb000103`; `rest` is the payload and then the checksum (R39). -/
  | statesetA2u (rest : List Byte)
  /-- Header `bb010003`. -/
  | statesetU2a (rest : List Byte)
  /-- Header `bb0001` and a command byte that no earlier row takes. -/
  | unknownA2u (cmd : Byte) (rest : List Byte)
  /-- Header `bb0100` and a command byte that no earlier row takes. -/
  | unknownU2a (cmd : Byte) (rest : List Byte)
deriving DecidableEq, Repr

end Sys2Proof
end

