-- ==== Sys2Proof/Machine/Dispatch.lean ====
section
/-! DEFINITION. The meaning of every instruction: one arm per row of spec/opcode_table.json. -/

namespace Sys2Proof.Machine

open Sys2Proof

def exec (i : Instr) (s : State) : Host.Outcome State Fault Refusal :=
  match i with
  | .tquant => Sys2Proof.Machine.execTquant s
  | .tenc => Sys2Proof.Machine.execTenc s
  | .tdec => Sys2Proof.Machine.execTdec s
  | .csum => Sys2Proof.Machine.execCsum s
  | .cver => Sys2Proof.Machine.execCver s
  | .fpack fid => Sys2Proof.Machine.execFpack fid s
  | .funpack fid => Sys2Proof.Machine.execFunpack fid s
  | .encf => Sys2Proof.Machine.execEncf s
  | .cls => Sys2Proof.Machine.execCls s
  | .dir => Sys2Proof.Machine.execDir s
  | .decs => Sys2Proof.Machine.execDecs s
  | .decf => Sys2Proof.Machine.execDecf s
  | .fePush d => Sys2Proof.Machine.execFePush d s
  | .feEof => Sys2Proof.Machine.execFeEof s
  | .feAbort => Sys2Proof.Machine.execFeAbort s
  | .feRd a => Sys2Proof.Machine.execFeRd a s
  | .feWr a d => Sys2Proof.Machine.execFeWr a d s
  | .keepaliveK0 => Sys2Proof.Machine.execKeepaliveK0 s
  | .statesetA2u rest => Sys2Proof.Machine.execStatesetA2u rest s
  | .statesetU2a rest => Sys2Proof.Machine.execStatesetU2a rest s
  | .unknownA2u cmd rest => Sys2Proof.Machine.execUnknownA2u cmd rest s
  | .unknownU2a cmd rest => Sys2Proof.Machine.execUnknownU2a cmd rest s

end Sys2Proof.Machine
end

