-- ==== Sys2Proof/WellFormed.lean ====
section
/-! DEFINITION. Which instruction terms stand for an encoding of the table. The fields of the request rows have exactly their
encoding's width, so every request term is well formed; a frame row must be the first row its own bytes match, and fit LEN. -/

namespace Sys2Proof

/-- R65: the rest of the KEEPALIVE_K0 frame after its header `bb000104`. -/
def keepaliveTail : List Byte := [0x02, 0x01, 0x00, 0xBD]

/-- The bytes after the header leave the whole frame's length within the 8-bit LEN operand (R55). -/
def restFits (rest : List Byte) : Bool := rest.length + 4 ≤ 255

/-- R65: an UNKNOWN row applies only to a frame that no earlier row matches: not a state-set command, and for the
adapter→unit row not the frame K0. -/
def Instr.wellFormed : Instr → Bool
  | .statesetA2u rest => restFits rest
  | .statesetU2a rest => restFits rest
  | .unknownA2u cmd rest => cmd != 0x03 && !(cmd == 0x04 && rest == keepaliveTail) && restFits rest
  | .unknownU2a cmd rest => cmd != 0x03 && restFits rest
  | .tquant | .tenc | .tdec | .csum | .cver | .fpack _ | .funpack _ | .encf | .cls | .dir | .decs | .decf
  | .fePush _ | .feEof | .feAbort | .feRd _ | .feWr _ _ | .keepaliveK0 => true

end Sys2Proof
end

