-- ==== Sys2Proof/Decode.lean ====
section
/-! DEFINITION. The decoder of both encoding layers (spec file 30), total and rejecting by name, and after it the encoder
written from the same tables. -/

namespace Sys2Proof

/-- The two layers of spec file 30: a 32-bit command word (R54), or the bytes of a frame in wire order (R43). -/
inductive Code
  | cmd (w : Word)
  | frame (bytes : List Byte)
deriving DecidableEq, Repr

/-- Why bits are no instruction. -/
inductive DecodeError
  /-- R63: OP is a reserved code. -/
  | reservedOp
  /-- R63: a reserved bit (7:5 or 15:12) is 1. -/
  | reservedBits
  /-- R63: a field the operation does not use is not 0. -/
  | unusedField
  /-- R65: the frame matches no row. -/
  | noFrameRow
deriving DecidableEq, Repr

/-! The command word's fields (R54). -/

def cmdOp (w : Word) : BitVec 5 := w.extractLsb' 0 5
def cmdFid (w : Word) : BitVec 4 := w.extractLsb' 8 4
def cmdA (w : Word) : Byte := w.extractLsb' 16 8
def cmdD (w : Word) : Byte := w.extractLsb' 24 8
def cmdReserved (w : Word) : BitVec 7 := w.extractLsb' 12 4 ++ w.extractLsb' 5 3

/-- R54: `i`, provided that the fields the operation does not use are 0. -/
def ifUnusedZero (unusedZero : Bool) (i : Instr) : Except DecodeError Instr :=
  if unusedZero then .ok i else .error .unusedField

/-- R54, R57, R63: the operation a command word selects. Whether the front-end is present is not the decoder's concern: a
front-end operation checks HAS_FE itself. -/
def decodeCmd (w : Word) : Except DecodeError Instr :=
  let fid0 := cmdFid w == 0
  let a0 := cmdA w == 0
  let d0 := cmdD w == 0
  if cmdReserved w != 0 then .error .reservedBits
  else match (cmdOp w).toNat with
    | 0x01 => ifUnusedZero (fid0 && a0 && d0) .tquant
    | 0x02 => ifUnusedZero (fid0 && a0 && d0) .tenc
    | 0x03 => ifUnusedZero (fid0 && a0 && d0) .tdec
    | 0x04 => ifUnusedZero (fid0 && a0 && d0) .csum
    | 0x05 => ifUnusedZero (fid0 && a0 && d0) .cver
    | 0x06 => ifUnusedZero (a0 && d0) (.fpack (cmdFid w))
    | 0x07 => ifUnusedZero (a0 && d0) (.funpack (cmdFid w))
    | 0x08 => ifUnusedZero (fid0 && a0 && d0) .encf
    | 0x09 => ifUnusedZero (fid0 && a0 && d0) .cls
    | 0x0A => ifUnusedZero (fid0 && a0 && d0) .dir
    | 0x0B => ifUnusedZero (fid0 && a0 && d0) .decs
    | 0x0C => ifUnusedZero (fid0 && a0 && d0) .decf
    | 0x10 => ifUnusedZero (fid0 && a0) (.fePush (cmdD w))
    | 0x11 => ifUnusedZero (fid0 && a0 && d0) .feEof
    | 0x12 => ifUnusedZero (fid0 && a0 && d0) .feAbort
    | 0x13 => ifUnusedZero (fid0 && d0) (.feRd (cmdA w))
    | 0x14 => ifUnusedZero fid0 (.feWr (cmdA w) (cmdD w))
    | _ => .error .reservedOp

/-- R65: the frame row of a frame, by its header word `{frame[0], …, frame[3]}`, tried in the order K0, the STATESET rows,
the UNKNOWN rows. Lengths are no part of the match: a frame that a row matches can still be Malformed (R68). -/
def decodeFrameRow : List Byte → Except DecodeError Instr
  | b0 :: b1 :: b2 :: cmd :: rest =>
    if b0 != 0xBB then .error .noFrameRow
    else if b1 == 0x00 && b2 == 0x01 then
      if cmd == 0x04 && rest == keepaliveTail then .ok .keepaliveK0
      else if cmd == 0x03 then .ok (.statesetA2u rest)
      else .ok (.unknownA2u cmd rest)
    else if b1 == 0x01 && b2 == 0x00 then
      if cmd == 0x03 then .ok (.statesetU2a rest)
      else .ok (.unknownU2a cmd rest)
    else .error .noFrameRow
  | _ => .error .noFrameRow

/-- The decoder of both layers. -/
def decode : Code → Except DecodeError Instr
  | .cmd w => decodeCmd w
  | .frame bytes => decodeFrameRow bytes

/-- R54: a command word from its fields. -/
def cmdWord (op : BitVec 5) (fid : BitVec 4) (a d : Byte) : Word := d ++ a ++ 0#4 ++ fid ++ 0#3 ++ op

/-- The encoding of an instruction (R54, R57, R65). -/
def encode : Instr → Code
  | .tquant => .cmd (cmdWord 0x01 0 0 0)
  | .tenc => .cmd (cmdWord 0x02 0 0 0)
  | .tdec => .cmd (cmdWord 0x03 0 0 0)
  | .csum => .cmd (cmdWord 0x04 0 0 0)
  | .cver => .cmd (cmdWord 0x05 0 0 0)
  | .fpack fid => .cmd (cmdWord 0x06 fid 0 0)
  | .funpack fid => .cmd (cmdWord 0x07 fid 0 0)
  | .encf => .cmd (cmdWord 0x08 0 0 0)
  | .cls => .cmd (cmdWord 0x09 0 0 0)
  | .dir => .cmd (cmdWord 0x0A 0 0 0)
  | .decs => .cmd (cmdWord 0x0B 0 0 0)
  | .decf => .cmd (cmdWord 0x0C 0 0 0)
  | .fePush d => .cmd (cmdWord 0x10 0 0 d)
  | .feEof => .cmd (cmdWord 0x11 0 0 0)
  | .feAbort => .cmd (cmdWord 0x12 0 0 0)
  | .feRd a => .cmd (cmdWord 0x13 0 a 0)
  | .feWr a d => .cmd (cmdWord 0x14 0 a d)
  | .keepaliveK0 => .frame ([0xBB, 0x00, 0x01, 0x04] ++ keepaliveTail)
  | .statesetA2u rest => .frame ([0xBB, 0x00, 0x01, 0x03] ++ rest)
  | .statesetU2a rest => .frame ([0xBB, 0x01, 0x00, 0x03] ++ rest)
  | .unknownA2u cmd rest => .frame ([0xBB, 0x00, 0x01, cmd] ++ rest)
  | .unknownU2a cmd rest => .frame ([0xBB, 0x01, 0x00, cmd] ++ rest)

/-- The `n` bytes of `w` with its most significant byte first: how the table writes a frame row, byte 0 in the highest bits
(R65). -/
def bytesHighFirst : Nat → Nat → List Byte
  | 0, _ => []
  | n + 1, w => BitVec.ofNat 8 (w / 256 ^ n) :: bytesHighFirst n w

/-- The bytes that follow a 4-byte header in the shortest frame its row decodes with zero operand bytes: payload and checksum
of a state-set frame in the reference configuration (N_SS = 35, R41), one checksum byte otherwise (MIN_FRAME_LEN = 5). -/
def zeroTail (cmd : Byte) : List Byte := List.replicate (if cmd = 0x03 then 31 else 1) 0

/-- The frame that the table's bits `w` stand for, its operand bytes 0. -/
def frameOfTableWord (nbits w : Nat) : List Byte :=
  if nbits = 32 then bytesHighFirst 4 w ++ zeroTail (BitVec.ofNat 8 w) else bytesHighFirst (nbits / 8) w

/-- The encoding that the table's bits `w` stand for: a command word where the 32 bits decode as one, otherwise a frame where
a frame row matches, otherwise the (illegal) command word. The command-word layer comes first, as in the table: 0xBB010014 is
FE_WR, not a frame. -/
def codeOfTableWord (nbits w : Nat) : Code :=
  let word := Code.cmd (BitVec.ofNat 32 w)
  let bytes := frameOfTableWord nbits w
  if nbits = 32 ∧ (decode word).isOk then word
  else if nbits ≠ 32 ∨ (decodeFrameRow bytes).isOk then .frame bytes
  else word

/-- The instruction that the decoder reads from the table's bits. -/
def decodeTableWord (nbits w : Nat) : Option Instr := (decode (codeOfTableWord nbits w)).toOption

end Sys2Proof
end

