-- ==== Sys2Proof/Machine/Fetch.lean ====
section
/-! DEFINITION. What the block reads as the instruction of the request in flight: the command word, and for DECF the frame on
the bus, whose header selects a frame row (R65). -/

namespace Sys2Proof.Machine

open Sys2Proof

/-- R65: the row of the frame a DECF request carries; where no row matches, or LEN exceeds NMAX, the instruction is DECF
itself, which then answers the error. -/
def fetchFrameRow (c : Config) (b : Buses) : Instr :=
  match frameOperand c b with
  | .error _ => .decf
  | .ok frame =>
    match decodeFrameRow frame with
    | .ok i => i
    | .error _ => .decf

/-- The instruction of a request: its command word decoded (R57, R63), a DECF request by its frame. -/
def fetch (c : Config) (w : Word) (b : Buses) : Except DecodeError Instr :=
  match decodeCmd w with
  | .ok .decf => .ok (fetchFrameRow c b)
  | .ok i => .ok i
  | .error e => .error e

/-- R54, R69: the request that an encoding stands for, on operand buses `b`: a command word as it stands; a frame on the FRAME
bus of a DECF request, with its byte count on LEN. -/
def requestOfCode (code : Code) (b : Buses) : Request :=
  match code with
  | .cmd w => ⟨w, b⟩
  | .frame bytes => ⟨cmdWord 0x0C 0 0 0, { b with frame := bytes, len := BitVec.ofNat 8 bytes.length }⟩

/-- R69: the request of one line of assembler, an instruction and its operand buses. -/
def requestOf (i : Instr) (b : Buses) : Request := requestOfCode (encode i) b

/-- R70: the pseudo-instruction FE_SEND, one FE_PUSH per byte and an FE_EOF. -/
def feSend (bytes : List Byte) : List Request :=
  bytes.map (fun d => requestOf (.fePush d) Buses.quiet) ++ [requestOf .feEof Buses.quiet]

/-- `s` with the request of an encoding in flight, its buses those of `s` but for a frame's; the reset input not asserted. -/
def State.loadCode (s : State) (code : Code) : State :=
  let r := requestOfCode code s.bus
  { s with rst := false, cmd := some r.cmd, bus := r.bus }

end Sys2Proof.Machine
end

