-- ==== Sys2Proof/Machine/Step.lean ====
section
/-! DEFINITION. One step of the block: reset if its input is asserted; otherwise the response of the request in flight, the
acceptance of the next request, or nothing. -/

namespace Sys2Proof.Machine

open Sys2Proof

/-- One atomic step (R24, R48, R51, R156). -/
def step (s : State) : Host.Outcome State Fault Refusal :=
  if s.rst then .next s.assertReset
  else
    match s.cmd with
    | some w =>
      match fetch s.cfg w s.bus with
      | .ok i => exec i s
      | .error _ => s.raise illegalOp
    | none =>
      match s.waiting with
      | r :: rest => .next (s.accept r rest)
      | [] => .next s.idle

/-- `s` with the table's bits `w` as the request in flight. -/
def State.withFetchWord (s : State) (nbits w : Nat) : State := s.loadCode (codeOfTableWord nbits w)

end Sys2Proof.Machine
end

