-- ==== Sys2Proof/Safety.lean ====
section
/-! DEFINITION. What counts as a safe state and a safe step of the block, and the terms of the spec's mathematics that the
statements use. -/

namespace Sys2Proof.Machine

open Sys2Proof

/-! ## The invariant -/

/-- R29, R142: a kind code and the status that go together. -/
def KindCode.goesWith : KindCode → Status → Bool
  | .none, .ok | .recognizedConstant, .ok | .stateSet, .ok | .unknownCommand, .unknownCommand => true
  | .malformed, .truncated | .malformed, .malformed | .malformed, .feOverflow => true
  | _, _ => false

/-- What holds of the front-end registers of a block built with configuration `c`, in every state a run reaches. -/
structure FrontEnd.Inv (c : Config) (fe : FrontEnd) : Prop where
  /-- R25: RXBUF has NMAX bytes. -/
  rxbuf_length : fe.rxbuf.length = c.nMax
  /-- R25: RXCNT is in 0..NMAX. -/
  rxcnt_le : fe.rxcnt.toNat ≤ c.nMax
  /-- R135: RXOVF = 1 implies RXCNT = NMAX. -/
  ovf_full : fe.rxovf = true → fe.rxcnt.toNat = c.nMax
  /-- R28: LAST_DIR is 0 when LAST_DIR_VALID is 0. -/
  dir_zero : fe.lastDirValid = false → fe.lastDir = .a2u
  /-- R29, R137, R142: LAST_KIND and LAST_STATUS go together. -/
  kind_status : fe.lastKind.goesWith fe.lastStatus = true
  /-- R31: LAST_ID is 0 for a kind that is neither RECOGNIZED_CONSTANT nor MALFORMED. -/
  id_zero : fe.lastKind ≠ .recognizedConstant → fe.lastKind ≠ .malformed → fe.lastId = 0
  /-- R31, R143: LAST_ID of a MALFORMED kind is a reason code 1 to 5. -/
  id_reason : fe.lastKind = .malformed → 1 ≤ fe.lastId.toNat ∧ fe.lastId.toNat ≤ 5
  /-- R136: a frame end that wrote the SRF was that of a state-set frame with a direction, and the SRF is valid since. -/
  written : fe.lastSrfWritten = true → fe.lastKind = .stateSet ∧ fe.lastDirValid = true ∧ fe.srfValid = true
  /-- R35, R141(b): the SRF holds zeros before the first write, and after it the DSI of a state-set payload. -/
  srf_image : (fe.srfValid = false ∧ fe.srf = Vector.replicate 16 0) ∨
    (fe.srfValid = true ∧ ∃ p : List Byte, p.length = c.pLen ∧ fe.srf = (decodeState c p).dsi)

/-- The invariant of the block: it was built legally (R6, R158) and its front-end registers are sound. -/
def State.Inv (s : State) : Prop := s.cfg.Legal ∧ s.fe.Inv s.cfg

/-- A step that does not stop the machine. -/
def State.SafeStep (s : State) : Prop := ∃ t, step s = .next t

/-! ## Terms of the statements -/

/-- R11: the temperature on the TEMP bus in degrees Celsius, `TEMP / 2^F`. -/
def celsius (c : Config) (temp : BitVec 16) : ℚ := (temp.toInt : ℚ) / 2 ^ c.fracBits

/-- R71: `quantize(c) = floor(c * 4) / 4`. -/
def quantize (t : ℚ) : ℚ := (⌊t * 4⌋ : ℚ) / 4

/-- R84, R85: the pseudocode's running XOR of FRAME bytes 0..n-1. -/
def busXor (b : Buses) (n : Nat) : Byte := (List.range n).foldl (fun x i => x ^^^ byteAt b.frame i) 0

/-- R104 to R108: byte `i` of the pack of field `f`, read from the bits of the STATE word and the quantized temperature. -/
def packedByte (c : Config) (st : Word) (temp : BitVec 16) (f : Field) (i : Nat) : Byte :=
  let bool (e : BoolEntry) (v : Bool) : Byte := if i = e.off ∧ v = true then e.mask else 0
  let enum {n : Nat} (e : EnumEntry n) (v : Nat) : Byte := if i = e.off then pdep (e.enc.toList.getD v 0) e.mask else 0
  let vane {n : Nat} (e : VaneEntry n) (v : Nat) : Byte :=
    (if i = e.offE then pdep (e.enc.toList.getD v 0) e.maskE else 0) |||
    (if i = e.offF ∧ e.flow.toList.getD v false = true then e.bitF else 0)
  let nibble (pos : NibblePos) (x : Nat) : Byte := BitVec.ofNat 8 (if pos = .lo then x else 16 * x)
  match f with
  | .power => bool c.ft.power (st.getLsbD 0)
  | .display => bool c.ft.display (st.getLsbD 1)
  | .buzzer => bool c.ft.buzzer (st.getLsbD 2)
  | .eco => bool c.ft.eco (st.getLsbD 3)
  | .heater8Degree => bool c.ft.heater8Degree (st.getLsbD 4)
  | .health => bool c.ft.health (st.getLsbD 5)
  | .sleepMode => enum c.ft.sleepMode (st.extractLsb' 6 2).toNat
  | .mode => enum c.ft.mode (st.extractLsb' 8 3).toNat
  | .windSpeed =>
    let sel := (c.ft.windSpeed.enc.toList.getD (st.extractLsb' 11 3).toNat 0).toNat
    (if i = c.ft.windSpeed.offU then pdep (BitVec.ofNat 8 (sel / 8)) c.ft.windSpeed.maskU else 0) |||
    (if i = c.ft.windSpeed.offL then pdep (BitVec.ofNat 8 (sel % 8)) c.ft.windSpeed.maskL else 0)
  | .verticalVane => vane c.ft.verticalVane (st.extractLsb' 14 4).toNat
  | .horizontalVane => vane c.ft.horizontalVane (st.extractLsb' 18 4).toNat
  | .targetTemperature =>
    let q := (quantizeTemp c.fracBits temp).toNat
    (if i = c.ft.temperature.offI then nibble c.ft.temperature.posI (31 - q / 4) else 0) |||
    (if i = c.ft.temperature.offF then nibble c.ft.temperature.posF (4 * (q % 4)) else 0)

/-- R110, R111: `x` is the field result of the wire code `r` under the codes of the variants, in port-code order, and the set
of patterns that decode to the default. -/
def IsLookup {w n : Nat} (codes : Vector (BitVec w) n) (unassigned : List (BitVec w)) (dflt : Nat) (r : BitVec w)
    (raw : Byte) (x : FieldResult) : Prop :=
  x.raw = raw ∧ x.flow = false ∧
  (∀ v : Fin n, codes[v] = r → x.unrec = false ∧ x.code.toNat = v) ∧
  (r ∉ codes.toList → r ∈ unassigned → x.unrec = false ∧ x.code.toNat = dflt) ∧
  (r ∉ codes.toList → r ∉ unassigned → x.unrec = true ∧ x.code = 0)

/-- R112: `x` is the field result of a vane whose enum bits are `r` and whose flow bit is `f`. -/
def IsVaneLookup {n : Nat} (e : VaneEntry n) (r : Byte) (f : Bool) (x : FieldResult) : Prop :=
  x.raw = r ∧ x.flow = f ∧
  (∀ v : Fin n, e.enc[v] = r → e.flow[v] = f → x.unrec = false ∧ x.code.toNat = v) ∧
  ((∀ v : Fin n, ¬(e.enc[v] = r ∧ e.flow[v] = f)) → r ∈ e.unassigned → f = e.autoFlow → x.unrec = false ∧ x.code = 0) ∧
  ((∀ v : Fin n, ¬(e.enc[v] = r ∧ e.flow[v] = f)) → ¬(r ∈ e.unassigned ∧ f = e.autoFlow) → x.unrec = true ∧ x.code = 0)

/-- R109: the bool fields' entries in field-id order. -/
def boolEntries (ft : FieldTable) : List BoolEntry :=
  [ft.power, ft.display, ft.buzzer, ft.eco, ft.heater8Degree, ft.health]

/-- R146: the `Err` responses the spec lets an operation give to a legal command word. -/
def errorsOf : Instr → List Error
  | .tquant | .decs | .feEof | .feAbort => []
  | .tenc => [⟨.outOfRange, 0⟩]
  | .tdec => [⟨.malformedField, 11⟩]
  | .csum | .funpack _ | .cls | .feRd _ | .feWr _ _ => [⟨.badOperand, 0⟩]
  | .cver => [⟨.badOperand, 0⟩, ⟨.truncated, 1⟩]
  | .fpack _ | .encf => [⟨.badOperand, 0⟩, ⟨.outOfRange, 0⟩]
  | .dir => [⟨.badOperand, 0⟩, ⟨.truncated, 1⟩, ⟨.malformed, 3⟩]
  | .decf | .keepaliveK0 | .statesetA2u _ | .statesetU2a _ | .unknownA2u _ _ | .unknownU2a _ _ =>
    [⟨.badOperand, 0⟩, ⟨.truncated, 1⟩, ⟨.malformed, 2⟩, ⟨.malformed, 3⟩, ⟨.malformed, 4⟩]
  | .fePush _ => [⟨.feOverflow, 0⟩]

/-- The state with a frame on the FRAME bus and its byte count on LEN. -/
def State.withFrame (s : State) (bytes : List Byte) : State :=
  { s with bus := { s.bus with frame := bytes, len := BitVec.ofNat 8 bytes.length } }

/-- The state with a payload on the PAYLOAD bus. -/
def State.withPayload (s : State) (bytes : List Byte) : State := { s with bus := { s.bus with payload := bytes } }

/-- R6: the state of a block with another LATENCY and ATTACH. -/
def State.withPlatform (s : State) (latency : List Nat) (attach : Attach) : State :=
  { s with cfg := { s.cfg with latency := latency, attach := attach } }

/-- R18: the operations of the codec core; the frame rows are answered by one of them, DECF. -/
def isCoreOp : Instr → Bool
  | .fePush _ | .feEof | .feAbort | .feRd _ | .feWr _ _ => false
  | .tquant | .tenc | .tdec | .csum | .cver | .fpack _ | .funpack _ | .encf | .cls | .dir | .decs | .decf
  | .keepaliveK0 | .statesetA2u _ | .statesetU2a _ | .unknownA2u _ _ | .unknownU2a _ _ => true

/-- R63: a command word is illegal for a block with or without the front-end. -/
def illegalWord (hasFe : Bool) (w : Word) : Prop :=
  (w.toNat % 32 = 0 ∨ (0x0D ≤ w.toNat % 32 ∧ w.toNat % 32 ≤ 0x0F) ∨ 0x15 ≤ w.toNat % 32) ∨
  (0x10 ≤ w.toNat % 32 ∧ w.toNat % 32 ≤ 0x14 ∧ hasFe = false) ∨
  (w.extractLsb' 5 3 ≠ 0 ∨ w.extractLsb' 12 4 ≠ 0) ∨
  (w.extractLsb' 8 4 ≠ 0 ∧ w.toNat % 32 ≠ 0x06 ∧ w.toNat % 32 ≠ 0x07) ∨
  (w.extractLsb' 16 8 ≠ 0 ∧ w.toNat % 32 ≠ 0x13 ∧ w.toNat % 32 ≠ 0x14) ∨
  (w.extractLsb' 24 8 ≠ 0 ∧ w.toNat % 32 ≠ 0x10 ∧ w.toNat % 32 ≠ 0x14)

end Sys2Proof.Machine
end

