-- ==== Sys2Proof/Certificates/Slice0/Obligations.lean ====
section
/-! DEFINITION. The statements about the model, one definition each; OBLIGATIONS.json lists them with the rules they rest on. -/

open Sys2Proof Sys2Proof.Machine

/-! ## The machine: steps, requests, decoding -/

/-- R20, R24, R56: giving a response ends the request in flight and touches the ports only. That the buses then read as zero is
the model's choice (log entry 6). -/
def Obligations.RespondTouchesPortsOnly : Prop :=
  ∀ (s : State) (r : Response),
    s.respond r = { s with cmd := none, bus := ⟨[], 0, [], 0, 0, 0⟩, resp := some r }

/-- R57: with the reset input low, a step at a request whose command word decodes runs exactly that instruction. DECF is the
next statement's. -/
def Obligations.StepRunsDecodedRequest : Prop :=
  ∀ (s : State) (w : Word) (i : Instr), s.rst = false → s.cmd = some w → decodeCmd w = .ok i → i ≠ .decf →
    step s = exec i s

/-- R65, R132: a step at a DECF request runs the frame row that the frame on the bus matches, and that is what DECF answers;
where no row matches or LEN exceeds NMAX, it runs DECF. That a frame row is an instruction of its own is deduced (log entry 8). -/
def Obligations.StepRunsFrameRow : Prop :=
  ∀ s : State, s.rst = false → s.cmd = some 0x0000000C →
    step s = exec .decf s ∧
    ∀ i : Instr, s.bus.len.toNat ≤ s.cfg.nMax → decodeFrameRow (fitBytes s.bus.len.toNat s.bus.frame) = .ok i →
      step s = exec i s

/-- R54, R65: the encoding of a well-formed instruction, put in flight, makes the next step run that instruction
(log entries 3 and 8). -/
def Obligations.LoadedInstructionRuns : Prop :=
  ∀ (s : State) (i : Instr), i.wellFormed = true → step (s.loadCode (encode i)) = exec i (s.loadCode (encode i))

/-- R24, R51, R56: with the reset input low, a waiting request is accepted only when none is in flight; a request in flight is
answered by the next step with exactly one response, and no other is accepted meanwhile; without a request nothing happens but
that the last response ceases to be valid. The list of waiting requests and how long a response stays are the model's choice
(log entries 3 and 4). -/
def Obligations.OneRequestAtATime : Prop :=
  ∀ s : State, s.rst = false →
    (∀ r rest, s.cmd = none → s.waiting = r :: rest →
      step s = .next { s with waiting := rest, cmd := some r.cmd, bus := r.bus, resp := none }) ∧
    (s.cmd = none → s.waiting = [] → step s = .next { s with resp := none }) ∧
    (∀ w, s.cmd = some w →
      ∃ t, step s = .next t ∧ t.cmd = none ∧ t.waiting = s.waiting ∧ t.resp.isSome = true)

/-- R147: every error is a response to its request; no step stops the machine. -/
def Obligations.EveryStepAnswers : Prop := ∀ s : State, s.SafeStep

/-- R63: an illegal command word gives `Err(ILLEGAL_OP, 0)` and no other state change, and a legal one never does. -/
def Obligations.IllegalWordsAnswerIllegalOp : Prop :=
  ∀ (s : State) (w : Word), s.rst = false → s.cmd = some w →
    (illegalWord s.cfg.hasFe w → step s = .next (s.respond (.err ⟨.illegalOp, 0⟩))) ∧
    (¬ illegalWord s.cfg.hasFe w → ∀ t, step s = .next t → t.resp ≠ some (.err ⟨.illegalOp, 0⟩))

/-- Spec file 30: decoding the encoding of any well-formed instruction gives it back. -/
def Obligations.DecodeOfEncode : Prop :=
  ∀ i : Instr, i.wellFormed = true → decode (encode i) = .ok i

/-- Spec file 30: bits that decode have exactly one encoding, themselves, and decode to a well-formed instruction. -/
def Obligations.EncodeOfDecode : Prop :=
  (∀ (w : Word) (i : Instr), decodeCmd w = .ok i → encode i = .cmd w ∧ i.wellFormed = true) ∧
  (∀ (bytes : List Byte) (i : Instr), bytes.length ≤ 255 → decodeFrameRow bytes = .ok i →
    encode i = .frame bytes ∧ i.wellFormed = true)

/-- Spec files 30, 45 and 95: words written out from the encoding tables decode to the instructions they stand for; that the
header of an UNKNOWN row is completed with one zero byte is the model's choice (log entry 10). -/
def Obligations.SpecWordsDecode : Prop :=
  decodeTableWord 32 0x00000001 = some .tquant ∧ decodeTableWord 32 0x00000C06 = some (.fpack 12) ∧
  decodeTableWord 32 0xBB000010 = some (.fePush 0xBB) ∧ decodeTableWord 32 0x00160013 = some (.feRd 0x16) ∧
  decodeTableWord 32 0x07000014 = some (.feWr 0x00 0x07) ∧
  decodeTableWord 64 0xBB000104020100BD = some .keepaliveK0 ∧
  decodeTableWord 32 0xBB0001FF = some (.unknownA2u 0xFF [0x00]) ∧
  decodeTableWord 32 0x00000021 = none ∧ decodeTableWord 32 0x01000011 = none

/-! ## Reset, configuration, invariant -/

/-- R156, R157, R37: at reset the request in flight is dropped without a response, every front-end register takes its reset
value, the configuration stays, and the block is ready for a request; FE_RD then gives 0x06 for 0x00 and 0x00 for every other
register. RXBUF is left out: its contents after reset are unspecified. -/
def Obligations.ResetDropsRequestAndClearsFrontEnd : Prop :=
  ∀ s : State, s.rst = true →
    ∃ t, step s = .next t ∧ t.cmd = none ∧ t.resp = none ∧ t.cfg = s.cfg ∧
      t.fe.rxcnt = 0 ∧ t.fe.rxovf = false ∧ t.fe.ctrl = 0b110 ∧ t.fe.lastKind = .none ∧ t.fe.lastStatus = .ok ∧
      t.fe.lastCmd = 0 ∧ t.fe.lastId = 0 ∧ t.fe.lastLen = 0 ∧ t.fe.lastCsumValid = false ∧ t.fe.lastDir = .a2u ∧
      t.fe.lastDirValid = false ∧ t.fe.lastSrfWritten = false ∧ t.fe.seq = 0 ∧ t.fe.srfValid = false ∧
      (∀ k : Fin 16, t.fe.srf[k] = 0) ∧
      ∀ a : Byte, s.cfg.hasFe = true →
        (a = 0x00 → exec (.feRd a) t = .next (t.respond (.ok (.byte 0x06)))) ∧
        (((0x01 ≤ a.toNat ∧ a.toNat ≤ 0x07) ∨ (0x10 ≤ a.toNat ∧ a.toNat ≤ 0x1F)) →
          exec (.feRd a) t = .next (t.respond (.ok (.byte 0x00))))

/-- The invariant holds right after reset, for every legal value of the OPEN parameters (log entry 1). -/
def Obligations.ResetStateIsSound : Prop := State.reset.Inv

/-- Every step from a sound state leads to a sound state: RXBUF keeps its size and RXCNT its range (R25), RXOVF implies a full
buffer (R135), the LAST_* registers hold only the combinations the spec produces (R28, R29, R31, R142, R143), and the SRF holds
zeros or the DSI of a state-set payload (R141(b)). -/
def Obligations.StepKeepsInvariant : Prop :=
  ∀ s t : State, s.Inv → step s = .next t → t.Inv

/-- R158, R21, R22: no step, and so no request and no reset, changes the configuration. -/
def Obligations.StepKeepsConfiguration : Prop :=
  ∀ s t : State, step s = .next t → t.cfg = s.cfg

/-- R50, R160: no step depends on LATENCY or ATTACH. -/
def Obligations.LatencyAndAttachIrrelevant : Prop :=
  ∀ (s t : State) (latency : List Nat) (attach : Attach), step s = .next t →
    step (s.withPlatform latency attach) = .next (t.withPlatform latency attach)

/-! ## What a request can change and what it depends on -/

/-- R18, R49: a core operation changes nothing but the ports, and its response is a function of the operand buses and the
configuration alone. -/
def Obligations.CoreIsStateless : Prop :=
  ∀ (i : Instr) (s t : State), isCoreOp i = true → exec i s = .next t →
    (t.cfg = s.cfg ∧ t.rst = s.rst ∧ t.waiting = s.waiting ∧ t.fe = s.fe) ∧
    ∀ s' t' : State, s'.cfg = s.cfg → s'.bus = s.bus → exec i s' = .next t' → t'.resp = t.resp

/-- R144: an `Err` response changes no state but the ports, save that FE_PUSH's FE_OVERFLOW sets RXOVF and discards the
byte. -/
def Obligations.ErrorsChangeNothing : Prop :=
  ∀ (i : Instr) (s t : State) (e : Error), exec i s = .next t → t.resp = some (.err e) →
    t.cfg = s.cfg ∧ t.rst = s.rst ∧ t.waiting = s.waiting ∧
    (e.status ≠ .feOverflow → t.fe = s.fe) ∧
    (e.status = .feOverflow → (∃ d, i = .fePush d) ∧ t.fe = { s.fe with rxovf := true })

/-- R55, R42: an operation's outcome does not depend on a bus it does not read, nor on FRAME bytes at index LEN or above; and
LEN > NMAX gives BAD_OPERAND. -/
def Obligations.UnreadBusesIgnored : Prop :=
  ∀ (s : State) (b : Buses),
    (b.temp = s.bus.temp → exec .tquant { s with bus := b } = exec .tquant s ∧
      exec .tenc { s with bus := b } = exec .tenc s) ∧
    (b.nib = s.bus.nib → exec .tdec { s with bus := b } = exec .tdec s) ∧
    (∀ i ∈ [Instr.csum, .cver, .cls, .dir, .decf],
      (b.len = s.bus.len → (∀ k, k < b.len.toNat → byteAt b.frame k = byteAt s.bus.frame k) →
        exec i { s with bus := b } = exec i s) ∧
      (s.cfg.nMax < s.bus.len.toNat → exec i s = .next (s.respond (.err ⟨.badOperand, 0⟩)))) ∧
    (∀ fid, b.state = s.bus.state → (fid = 11 → b.temp = s.bus.temp) →
      exec (.fpack fid) { s with bus := b } = exec (.fpack fid) s) ∧
    (b.state = s.bus.state → b.temp = s.bus.temp → exec .encf { s with bus := b } = exec .encf s) ∧
    ((∀ k, k < s.cfg.pLen → byteAt b.payload k = byteAt s.bus.payload k) →
      exec .decs { s with bus := b } = exec .decs s ∧
      ∀ fid, exec (.funpack fid) { s with bus := b } = exec (.funpack fid) s) ∧
    (∀ i : Instr, isCoreOp i = false → exec i { s with bus := b } = exec i s)

/-- R146: with the front-end present, each operation gives no `Err` response but those the spec lists for it; so the codes that
R142 and R143 call never produced, and UNKNOWN_COMMAND, are no response of any. -/
def Obligations.ErrorsPerOperation : Prop :=
  ∀ (i : Instr) (s t : State) (e : Error), s.cfg.hasFe = true → exec i s = .next t → t.resp = some (.err e) →
    e ∈ errorsOf i

/-- R61: a STATE word is valid for a field when bits 31:22 are 0 and the field's port code is a variant's; FPACK requires it of
the field it packs and ENCF of every field, or ends with BAD_OPERAND. -/
def Obligations.StateWordValidity : Prop :=
  ∀ (s : State) (f : Field),
    let st := s.bus.state
    (stateValidFor st f = true ↔
      st.toNat < 2 ^ 22 ∧ (f = .mode → st.toNat / 2 ^ 8 % 8 ≤ 4) ∧ (f = .verticalVane → st.toNat / 2 ^ 14 % 16 ≤ 8) ∧
      (f = .horizontalVane → st.toNat / 2 ^ 18 % 16 ≤ 9)) ∧
    (stateValidFor st f = false → exec .encf s = .next (s.respond (.err ⟨.badOperand, 0⟩)) ∧
      ∀ fid : BitVec 4, fieldOf fid = some f → exec (.fpack fid) s = .next (s.respond (.err ⟨.badOperand, 0⟩)))

/-! ## Temperature -/

/-- R71, R77: TQUANT gives `floor(c * 4) / 4`, without a range check. -/
def Obligations.TquantTruncatesToLowerQuarter : Prop :=
  decodeCmd 0x00000001 = .ok .tquant ∧
  ∀ s : State, 2 ≤ s.cfg.fracBits →
    ∃ v : BitVec 16, exec .tquant s = .next (s.respond (.ok (.tq v))) ∧
      (v.toInt : ℚ) / 4 = quantize (celsius s.cfg s.bus.temp)

/-- R72, R73, R74, R78: TENC accepts 16.0 to 31.0 before quantization and gives T_INT = 31 - floor(quantize(c)) and
T_FRAC = 16 × the fraction; any other temperature gives `Err(OUT_OF_RANGE, 0)`. -/
def Obligations.TencGivesNibbles : Prop :=
  decodeCmd 0x00000002 = .ok .tenc ∧
  ∀ s : State, 2 ≤ s.cfg.fracBits →
    let c := celsius s.cfg s.bus.temp
    (16 ≤ c → c ≤ 31 → ∃ v : Byte, exec .tenc s = .next (s.respond (.ok (.nib v))) ∧
      ((v.toNat / 16 : ℕ) : ℤ) = 31 - ⌊quantize c⌋ ∧
      ((v.toNat % 16 : ℕ) : ℚ) = 16 * (quantize c - ⌊quantize c⌋)) ∧
    (¬(16 ≤ c ∧ c ≤ 31) → exec .tenc s = .next (s.respond (.err ⟨.outOfRange, 0⟩)))

/-- R75, R79: TDEC gives `(31 - T_INT) + T_FRAC / 16` for a T_FRAC of the table, and `Err(MALFORMED_FIELD, 11)` otherwise. -/
def Obligations.TdecInvertsTheTable : Prop :=
  decodeCmd 0x00000003 = .ok .tdec ∧
  ∀ s : State,
    let tInt := s.bus.nib.toNat / 16
    let tFrac := s.bus.nib.toNat % 16
    (tFrac ∈ [0x0, 0x4, 0x8, 0xC] → ∃ v : BitVec 16, exec .tdec s = .next (s.respond (.ok (.tq v))) ∧
      (v.toNat : ℚ) / 4 = (31 - (tInt : ℚ)) + (tFrac : ℚ) / 16) ∧
    (tFrac ∉ [0x0, 0x4, 0x8, 0xC] → exec .tdec s = .next (s.respond (.err ⟨.malformedField, 11⟩)))

/-- R80: (a) TDEC undoes TENC on every quarter degree in [16.0, 31.0]; (b) TENC of a decoded temperature gives the nibbles back
when it is at most 31.0 and OUT_OF_RANGE otherwise; (c) a larger accepted temperature never gives a larger T_INT. -/
def Obligations.TemperatureRoundTrips : Prop :=
  ∀ s s' : State, s'.cfg = s.cfg → 2 ≤ s.cfg.fracBits → s.cfg.fracBits ≤ 10 →
    (∀ q : ℕ, 64 ≤ q → q ≤ 124 → s.bus.temp = tempWord s.cfg.fracBits q →
      ∃ v : Byte, exec .tenc s = .next (s.respond (.ok (.nib v))) ∧
        (s'.bus.nib = v → exec .tdec s' = .next (s'.respond (.ok (.tq (BitVec.ofNat 16 q)))))) ∧
    (∀ v : BitVec 16, exec .tdec s = .next (s.respond (.ok (.tq v))) →
      s'.bus.temp = tempWord s.cfg.fracBits v.toNat →
      exec .tenc s' = .next (s'.respond (if v.toNat ≤ 124 then .ok (.nib s.bus.nib) else .err ⟨.outOfRange, 0⟩))) ∧
    (∀ v v' : Byte, exec .tenc s = .next (s.respond (.ok (.nib v))) → exec .tenc s' = .next (s'.respond (.ok (.nib v'))) →
      s.bus.temp.toInt ≤ s'.bus.temp.toInt → v'.toNat / 16 ≤ v.toNat / 16)

/-! ## Checksum -/

/-- R84: CSUM gives the running XOR of frame bytes 0..LEN-1, and BAD_OPERAND when LEN > NMAX. -/
def Obligations.CsumFoldsXor : Prop :=
  decodeCmd 0x00000004 = .ok .csum ∧
  ∀ s : State,
    (s.bus.len.toNat ≤ s.cfg.nMax → exec .csum s = .next (s.respond (.ok (.byte (busXor s.bus s.bus.len.toNat))))) ∧
    (s.cfg.nMax < s.bus.len.toNat → exec .csum s = .next (s.respond (.err ⟨.badOperand, 0⟩)))

/-- R85: CVER compares the XOR of all bytes but the last with the last; LEN = 0 gives `Err(TRUNCATED, 1)`, LEN > NMAX gives
BAD_OPERAND. -/
def Obligations.CverComparesLastByte : Prop :=
  decodeCmd 0x00000005 = .ok .cver ∧
  ∀ s : State,
    let n := s.bus.len.toNat
    (s.cfg.nMax < n → exec .cver s = .next (s.respond (.err ⟨.badOperand, 0⟩))) ∧
    (n ≤ s.cfg.nMax → n = 0 → exec .cver s = .next (s.respond (.err ⟨.truncated, 1⟩))) ∧
    (n ≤ s.cfg.nMax → 1 ≤ n →
      exec .cver s = .next (s.respond (.ok
        (.verdict (busXor s.bus (n - 1) == byteAt s.bus.frame (n - 1)) (busXor s.bus (n - 1))))))

/-- R86 (b) and (c): flipping any one bit of a frame that verifies, checksum byte included, makes it fail to verify; flipping
the bit at one position in two different bytes before the last leaves it verifying. -/
def Obligations.FlippedBitFailsToVerify : Prop :=
  ∀ (s : State) (i j k : ℕ) (x : Byte), j < 8 → i < s.bus.len.toNat →
    exec .cver s = .next (s.respond (.ok (.verdict true x))) →
    let frame := fitBytes s.bus.len.toNat s.bus.frame
    let flip (n : ℕ) (l : List Byte) : List Byte := l.modify n (· ^^^ (1#8 <<< j))
    (∃ y, exec .cver (s.withFrame (flip i frame)) =
      .next ((s.withFrame (flip i frame)).respond (.ok (.verdict false y)))) ∧
    (i < k → k + 1 < s.bus.len.toNat →
      exec .cver (s.withFrame (flip i (flip k frame))) =
        .next ((s.withFrame (flip i (flip k frame))).respond (.ok (.verdict true x))))

/-! ## The Field Table -/

/-- R9: `pext` gathers the bits at the set positions of the mask, lowest first, `pdep` spreads them back, and for a contiguous
mask both are shift and mask. -/
def Obligations.PextGathersPdepSpreads : Prop :=
  ∀ v m : Byte,
    let rank (i : ℕ) : ℕ := (List.range i).countP fun j => m.getLsbD j
    (∀ i, i < 8 → m.getLsbD i = true →
      (pext v m).getLsbD (rank i) = v.getLsbD i ∧ (pdep v m).getLsbD i = v.getLsbD (rank i)) ∧
    (∀ i, i < 8 → m.getLsbD i = false → (pdep v m).getLsbD i = false) ∧
    (∀ k, rank 8 ≤ k → (pext v m).getLsbD k = false) ∧
    (v.toNat < 2 ^ rank 8 → pext (pdep v m) m = v) ∧
    (∀ j w : ℕ, 1 ≤ w → j + w ≤ 8 → m = BitVec.ofNat 8 ((2 ^ w - 1) * 2 ^ j) →
      pdep v m = (v <<< j) &&& m ∧ pext v m = (v &&& m) >>> j)

/-- R115, with R104 to R108: FPACK packs exactly the bits of one field; FID 12 to 15 or an invalid STATE word for the field
gives BAD_OPERAND, and after that a temperature out of range gives OUT_OF_RANGE. -/
def Obligations.FpackPacksOneField : Prop :=
  ∀ (s : State) (fid : BitVec 4),
    decodeCmd (0x00000006 ||| fid.setWidth 32 <<< 8) = .ok (.fpack fid) ∧
    (12 ≤ fid.toNat → exec (.fpack fid) s = .next (s.respond (.err ⟨.badOperand, 0⟩))) ∧
    ∀ f : Field, fieldOf fid = some f →
      (stateValidFor s.bus.state f = false → exec (.fpack fid) s = .next (s.respond (.err ⟨.badOperand, 0⟩))) ∧
      (stateValidFor s.bus.state f = true → f = .targetTemperature → tempInRange s.cfg.fracBits s.bus.temp = false →
        exec (.fpack fid) s = .next (s.respond (.err ⟨.outOfRange, 0⟩))) ∧
      (stateValidFor s.bus.state f = true → (f = .targetTemperature → tempInRange s.cfg.fracBits s.bus.temp = true) →
        2 ≤ s.cfg.fracBits →
        ∃ p : List Byte, exec (.fpack fid) s = .next (s.respond (.ok (.payload p))) ∧ p.length = s.cfg.pLen ∧
          ∀ i, i < s.cfg.pLen → byteAt p i = packedByte s.cfg s.bus.state s.bus.temp f i)

/-- R109 and R116: FUNPACK of a bool field (FID 0 to 5) gives its bit, never Unrecognized; FID 12 to 15 gives BAD_OPERAND. -/
def Obligations.FunpackReadsBools : Prop :=
  ∀ s : State, s.cfg.Legal →
    (∀ (k : ℕ) (e : BoolEntry), (boolEntries s.cfg.ft)[k]? = some e →
      let b : Byte := if byteAt s.bus.payload e.off &&& e.mask = 0 then 0 else 1
      exec (.funpack (BitVec.ofNat 4 k)) s = .next (s.respond (.ok (.field ⟨false, b, b, false⟩)))) ∧
    (∀ fid : BitVec 4, 12 ≤ fid.toNat → exec (.funpack fid) s = .next (s.respond (.err ⟨.badOperand, 0⟩)))

/-- R110, R111, R91: FUNPACK of sleep_mode, mode and wind_speed looks the wire bits up: a variant's code gives its port code, an
unassigned pattern the default (Off, Auto, Auto), anything else Unrecognized. -/
def Obligations.FunpackLooksUpEnums : Prop :=
  ∀ s : State, s.cfg.Legal →
    let ft := s.cfg.ft
    let p := s.bus.payload
    let sleepBits := pext (byteAt p ft.sleepMode.off) ft.sleepMode.mask
    let modeBits := pext (byteAt p ft.mode.off) ft.mode.mask
    let sel := 8 * (pext (byteAt p ft.windSpeed.offU) ft.windSpeed.maskU).toNat +
      (pext (byteAt p ft.windSpeed.offL) ft.windSpeed.maskL).toNat
    (∃ x, exec (.funpack 6) s = .next (s.respond (.ok (.field x))) ∧
      IsLookup ft.sleepMode.enc ft.sleepMode.unassigned 0 sleepBits sleepBits x) ∧
    (∃ x, exec (.funpack 7) s = .next (s.respond (.ok (.field x))) ∧
      IsLookup ft.mode.enc ft.mode.unassigned 4 modeBits modeBits x) ∧
    (∃ x, exec (.funpack 8) s = .next (s.respond (.ok (.field x))) ∧
      IsLookup ft.windSpeed.enc ft.windSpeed.unassigned 0 (BitVec.ofNat 5 sel) (BitVec.ofNat 8 sel) x)

/-- R112: FUNPACK of a vane looks the pair of enum bits and flow bit up; a pair that is no variant's is Auto only for an
unassigned code with Auto's flow bit, and Unrecognized otherwise. -/
def Obligations.FunpackLooksUpVanes : Prop :=
  ∀ s : State, s.cfg.Legal →
    let v := s.cfg.ft.verticalVane
    let h := s.cfg.ft.horizontalVane
    let p := s.bus.payload
    (∃ x, exec (.funpack 9) s = .next (s.respond (.ok (.field x))) ∧
      IsVaneLookup v (pext (byteAt p v.offE) v.maskE) (byteAt p v.offF &&& v.bitF != 0) x) ∧
    (∃ x, exec (.funpack 10) s = .next (s.respond (.ok (.field x))) ∧
      IsVaneLookup h (pext (byteAt p h.offE) h.maskE) (byteAt p h.offF &&& h.bitF != 0) x)

/-- R113: FUNPACK of the temperature gives `4*(31-T_INT) + (T_FRAC >> 2)` for a T_FRAC of the table and Unrecognized otherwise,
with RAW = {T_INT, T_FRAC}. -/
def Obligations.FunpackReadsTemperature : Prop :=
  ∀ s : State, s.cfg.Legal →
    let e := s.cfg.ft.temperature
    let nib (pos : NibblePos) (off : ℕ) : ℕ :=
      if pos = .lo then (byteAt s.bus.payload off).toNat % 16 else (byteAt s.bus.payload off).toNat / 16
    let tInt := nib e.posI e.offI
    let tFrac := nib e.posF e.offF
    exec (.funpack 11) s = .next (s.respond (.ok (.field
      (if tFrac % 4 = 0 then ⟨false, BitVec.ofNat 8 (4 * (31 - tInt) + tFrac / 4), BitVec.ofNat 8 (16 * tInt + tFrac), false⟩
       else ⟨true, 0, BitVec.ofNat 8 (16 * tInt + tFrac), false⟩))))

/-! ## Encoding and decoding frames -/

/-- R121, R120, R41: ENCF gives the header `bb000103`, the OR of the packs of all twelve fields, and the XOR of both, N_SS bytes
in all; an invalid STATE word gives BAD_OPERAND, tested first, and a temperature out of range OUT_OF_RANGE. -/
def Obligations.EncfBuildsTheFrame : Prop :=
  decodeCmd 0x00000008 = .ok .encf ∧
  ∀ s : State, 2 ≤ s.cfg.fracBits →
    ((∃ f, stateValidFor s.bus.state f = false) → exec .encf s = .next (s.respond (.err ⟨.badOperand, 0⟩))) ∧
    ((∀ f, stateValidFor s.bus.state f = true) → tempInRange s.cfg.fracBits s.bus.temp = false →
      exec .encf s = .next (s.respond (.err ⟨.outOfRange, 0⟩))) ∧
    ((∀ f, stateValidFor s.bus.state f = true) → tempInRange s.cfg.fracBits s.bus.temp = true →
      ∃ frame : List Byte, exec .encf s = .next (s.respond (.ok (.frame frame (BitVec.ofNat 8 s.cfg.nSs)))) ∧
        frame.length = s.cfg.nSs ∧ frame.take 4 = [0xBB, 0x00, 0x01, 0x03] ∧
        (∀ i, i < s.cfg.pLen → byteAt frame (4 + i) =
          allFields.foldl (fun b f => b ||| packedByte s.cfg s.bus.state s.bus.temp f i) 0) ∧
        byteAt frame (4 + s.cfg.pLen) = xorFold (frame.take (4 + s.cfg.pLen)))

/-- R122 (a) and (b), R86 (a): a frame made by ENCF verifies and classifies as StateSet, adapter→unit. -/
def Obligations.EncodedFrameVerifiesAndClassifies : Prop :=
  ∀ (s s' : State) (frame : List Byte) (n : Byte), s.cfg.Legal → s'.cfg = s.cfg →
    exec .encf s = .next (s.respond (.ok (.frame frame n))) → s'.bus.frame = frame → s'.bus.len = n →
    (∃ x, exec .cver s' = .next (s'.respond (.ok (.verdict true x)))) ∧
    exec .cls s' = .next (s'.respond (.ok (.kind .stateSet 0x03 ((frame.drop 4).take s.cfg.pLen)))) ∧
    exec .dir s' = .next (s'.respond (.ok (.dir .a2u)))

/-- R122 (c), R117 (a): for every legal Field Table, ENCF of a `ClimateState` with a temperature in [16.0, 31.0] and then DECS
of the frame's payload gives every field back, the temperature quantized, nothing Unrecognized and no reserved bit set. -/
def Obligations.DecsUndoesEncf : Prop :=
  ∀ (s : State) (cs : ClimateState), s.cfg.Legal → s.bus.state = stateWord cs →
    tempInRange s.cfg.fracBits s.bus.temp = true → quantizeTemp s.cfg.fracBits s.bus.temp = cs.targetQuarters →
    ∃ (frame : List Byte) (n : Byte), exec .encf s = .next (s.respond (.ok (.frame frame n))) ∧
      ∀ s' : State, s'.cfg = s.cfg → s'.bus.payload = (frame.drop 4).take s.cfg.pLen →
        ∃ d : DecodedState, exec .decs s' = .next (s'.respond (.ok (.state d))) ∧
          d.padmap = List.replicate s.cfg.pLen false ∧
          d.dsi[0].toNat = cs.power.toNat + 2 * cs.display.toNat + 4 * cs.buzzer.toNat + 8 * cs.eco.toNat +
            16 * cs.heater8Degree.toNat + 32 * cs.health.toNat ∧
          d.dsi[1].toNat = cs.sleepMode.port ∧ d.dsi[2].toNat = cs.mode.port ∧ d.dsi[3].toNat = cs.windSpeed.port ∧
          d.dsi[4].toNat = cs.verticalVane.port ∧ d.dsi[5].toNat = cs.horizontalVane.port ∧
          d.dsi[6].toNat = cs.targetQuarters ∧ d.dsi[15] = 0

/-- R126, R127: DECS always succeeds; the DSI's bytes are the field results that FUNPACK gives, in the layout of R126, and PAD
counts the set bits of PADMAP. -/
def Obligations.DecsLaysOutTheImage : Prop :=
  ∀ s : State, ∃ d : DecodedState, exec .decs s = .next (s.respond (.ok (.state d))) ∧
    (∀ k : ℕ, 1 ≤ k → k ≤ 6 → ∃ r : FieldResult,
      exec (.funpack (BitVec.ofNat 4 (k + 5))) s = .next (s.respond (.ok (.field r))) ∧
      d.dsi[k]? = some (if r.unrec then 0x80 else r.code) ∧ d.dsi[k + 7]? = some r.raw) ∧
    (∀ k : ℕ, k < 6 → ∃ r : FieldResult,
      exec (.funpack (BitVec.ofNat 4 k)) s = .next (s.respond (.ok (.field r))) ∧ r.code.toNat = (d.dsi[0].getLsbD k).toNat) ∧
    d.dsi[0].toNat < 64 ∧ d.dsi[7] = 0 ∧
    (∃ v h : FieldResult, exec (.funpack 9) s = .next (s.respond (.ok (.field v))) ∧
      exec (.funpack 10) s = .next (s.respond (.ok (.field h))) ∧ d.dsi[14].toNat = v.flow.toNat + 2 * h.flow.toNat) ∧
    d.padmap.length = s.cfg.pLen ∧ d.dsi[15].getLsbD 0 = decide (true ∈ d.padmap) ∧
    d.dsi[15].toNat / 2 = min (d.padmap.count true) 127

/-- R114: PADMAP[i] is set exactly when payload byte i has a bit set that no mask of the Field Table controls. -/
def Obligations.PadmapFlagsReservedBits : Prop :=
  ∀ s : State, ∃ d : DecodedState, exec .decs s = .next (s.respond (.ok (.state d))) ∧
    ∀ i, i < s.cfg.pLen →
      (d.padmap[i]? = some true ↔ ∃ b, b < 8 ∧ (byteAt s.bus.payload i).getLsbD b = true ∧
        ∀ c ∈ s.cfg.ft.claims, c.1 = i → c.2.getLsbD b = false)

/-- R124, R129: CLS classifies by the six tests of R124, the first that applies deciding. -/
def Obligations.ClsClassifiesFrames : Prop :=
  decodeCmd 0x00000009 = .ok .cls ∧
  ∀ s : State, s.cfg.Legal →
    let n := s.bus.len.toNat
    let frame := fitBytes n s.bus.frame
    let at_ (i : ℕ) : Byte := byteAt s.bus.frame i
    let gives (k : KindCode) (aux : Byte) (p : List Byte) : Prop := exec .cls s = .next (s.respond (.ok (.kind k aux p)))
    let zeros := List.replicate s.cfg.pLen (0 : Byte)
    (s.cfg.nMax < n → exec .cls s = .next (s.respond (.err ⟨.badOperand, 0⟩))) ∧
    (n ≤ s.cfg.nMax →
      (∀ id : ℕ, s.cfg.kcat[id]? = some frame → gives .recognizedConstant (BitVec.ofNat 8 id) zeros) ∧
      (frame ∉ s.cfg.kcat →
        (n < 5 → gives .malformed 1 zeros) ∧
        (5 ≤ n → at_ 0 ≠ 0xBB → gives .malformed 2 zeros) ∧
        (5 ≤ n → at_ 0 = 0xBB → ¬ isDirectionPair (at_ 1) (at_ 2) → gives .malformed 3 zeros) ∧
        (5 ≤ n → at_ 0 = 0xBB → isDirectionPair (at_ 1) (at_ 2) →
          (at_ 3 = 0x03 → n < s.cfg.nSs → gives .malformed 1 zeros) ∧
          (at_ 3 = 0x03 → s.cfg.nSs < n → gives .malformed 4 zeros) ∧
          (at_ 3 = 0x03 → n = s.cfg.nSs → gives .stateSet 0x03 ((frame.drop 4).take s.cfg.pLen)) ∧
          (at_ 3 ≠ 0x03 → gives .unknownCommand (at_ 3) zeros))))

/-- R130, R125: DIR gives 0 for the pair 00,01 and 1 for 01,00 whatever byte 0 is, `Err(MALFORMED, 3)` for another pair,
`Err(TRUNCATED, 1)` below three bytes and BAD_OPERAND when LEN > NMAX. -/
def Obligations.DirComparesTheHeaderPair : Prop :=
  decodeCmd 0x0000000A = .ok .dir ∧
  ∀ s : State,
    let n := s.bus.len.toNat
    let b1 := byteAt s.bus.frame 1
    let b2 := byteAt s.bus.frame 2
    (s.cfg.nMax < n → exec .dir s = .next (s.respond (.err ⟨.badOperand, 0⟩))) ∧
    (n ≤ s.cfg.nMax → n < 3 → exec .dir s = .next (s.respond (.err ⟨.truncated, 1⟩))) ∧
    (n ≤ s.cfg.nMax → 3 ≤ n →
      (b1 = 0x00 → b2 = 0x01 → exec .dir s = .next (s.respond (.ok (.dir .a2u)))) ∧
      (b1 = 0x01 → b2 = 0x00 → exec .dir s = .next (s.respond (.ok (.dir .u2a)))) ∧
      (¬ isDirectionPair b1 b2 → exec .dir s = .next (s.respond (.err ⟨.malformed, 3⟩))))

/-- R128 with R129, R85, R130 and R131: DECF's answer to a frame is put together from what CLS, CVER, DIR and DECS answer:
TRUNCATED or MALFORMED with CLS's reason for a malformed frame; otherwise CLS's kind and auxiliary byte, DIR's direction, CVER's
verdict, and for a state-set frame what DECS gives for its payload, else zeros. -/
def Obligations.DecfAgreesWithItsParts : Prop :=
  ∀ (s : State) (k : KindCode) (aux : Byte) (p : List Byte), s.cfg.Legal →
    exec .cls s = .next (s.respond (.ok (.kind k aux p))) →
    (k = .malformed → exec .decf s = .next (s.respond (.err ⟨if aux = 1 then .truncated else .malformed, aux⟩))) ∧
    (k ≠ .malformed → ∃ (d : DecodedFrame) (x : Byte),
      exec .decf s = .next (s.respond (.ok (.decoded d))) ∧ d.kind = k ∧ d.aux = aux ∧
      exec .dir s = .next (s.respond (.ok (.dir d.dir))) ∧
      exec .cver s = .next (s.respond (.ok (.verdict d.csv x))) ∧
      (k = .stateSet → d.hasState = true ∧
        exec .decs (s.withPayload p) = .next ((s.withPayload p).respond (.ok (.state ⟨d.dsi, d.padmap⟩)))) ∧
      (k ≠ .stateSet → d.hasState = false ∧ d.dsi = Vector.replicate 16 0 ∧ d.padmap = List.replicate s.cfg.pLen false))

/-- R133 (b), R83: whatever checksum byte a state-set frame carries, DECF gives the same kind, direction and decoded state; only
the verdict follows the checksum. -/
def Obligations.ChecksumOnlyAffectsVerdict : Prop :=
  ∀ (s : State) (d : DecodedFrame) (x : Byte), s.cfg.Legal →
    exec .decf s = .next (s.respond (.ok (.decoded d))) → d.kind = .stateSet →
    let s' := s.withFrame ((fitBytes s.bus.len.toNat s.bus.frame).set (s.bus.len.toNat - 1) x)
    exec .decf s' = .next (s'.respond (.ok (.decoded { d with csv := busXor s.bus (s.bus.len.toNat - 1) == x })))

/-- R133 (d), R123: every catalog entry is recognized by exact match, with its index as id, and carries no state. -/
def Obligations.CatalogEntriesAreRecognized : Prop :=
  ∀ (s : State) (id : ℕ) (entry : List Byte), s.cfg.Legal → s.cfg.kcat[id]? = some entry →
    ∃ d : DecodedFrame, exec .decf (s.withFrame entry) = .next ((s.withFrame entry).respond (.ok (.decoded d))) ∧
      d.kind = .recognizedConstant ∧ d.aux.toNat = id ∧ d.hasState = false

/-! ## The frame rows of the opcode table

That such a row, as an instruction, is DECF's answer to its frame is deduced (log entry 8). -/

/-- R123: the frame `bb000104020100bd` is recognized as catalog entry 0, adapter→unit, with a valid checksum and no state. -/
def Obligations.KeepaliveK0IsRecognized : Prop :=
  ∀ s : State, s.cfg.Legal →
    exec .keepaliveK0 s = .next (s.respond (.ok (.decoded
      ⟨.recognizedConstant, 0, .a2u, true, false, Vector.replicate 16 0, List.replicate s.cfg.pLen false⟩)))

/-- R124, R128: a frame with a state-set header of either direction decodes as StateSet when it has N_SS bytes, is TRUNCATED
below and MALFORMED with BAD_LENGTH above, and BAD_OPERAND above NMAX. -/
def Obligations.StatesetFramesDecode : Prop :=
  ∀ (s : State) (rest : List Byte), s.cfg.Legal →
    let dec (header : List Byte) (dir : Direction) : Response := .ok (.decoded
      ⟨.stateSet, 0x03, dir, xorFold (header ++ rest) == 0, true, (decodeState s.cfg (rest.take s.cfg.pLen)).dsi,
        (decodeState s.cfg (rest.take s.cfg.pLen)).padmap⟩)
    (rest.length = s.cfg.pLen + 1 →
      exec (.statesetA2u rest) s = .next (s.respond (dec [0xBB, 0x00, 0x01, 0x03] .a2u)) ∧
      exec (.statesetU2a rest) s = .next (s.respond (dec [0xBB, 0x01, 0x00, 0x03] .u2a))) ∧
    ∀ i ∈ [Instr.statesetA2u rest, .statesetU2a rest],
      (rest.length < s.cfg.pLen + 1 → exec i s = .next (s.respond (.err ⟨.truncated, 1⟩))) ∧
      (s.cfg.pLen + 1 < rest.length → rest.length + 4 ≤ s.cfg.nMax →
        exec i s = .next (s.respond (.err ⟨.malformed, 4⟩))) ∧
      (s.cfg.nMax < rest.length + 4 → exec i s = .next (s.respond (.err ⟨.badOperand, 0⟩)))

/-- R66, R124, R128: a frame with a good header and a command other than 0x03 that is no catalog entry decodes as
UnknownCommand with its command byte, whatever its checksum; one without a fifth byte is TRUNCATED, one above NMAX
BAD_OPERAND. -/
def Obligations.UnknownFramesDecode : Prop :=
  ∀ (s : State) (cmd : Byte) (rest : List Byte), s.cfg.Legal → cmd ≠ 0x03 →
    let a2u : List Byte := [0xBB, 0x00, 0x01, cmd] ++ rest
    let u2a : List Byte := [0xBB, 0x01, 0x00, cmd] ++ rest
    let dec (frame : List Byte) (dir : Direction) : Response := .ok (.decoded
      ⟨.unknownCommand, cmd, dir, xorFold frame == 0, false, Vector.replicate 16 0, List.replicate s.cfg.pLen false⟩)
    (1 ≤ rest.length → rest.length + 4 ≤ s.cfg.nMax →
      (a2u ∉ s.cfg.kcat → exec (.unknownA2u cmd rest) s = .next (s.respond (dec a2u .a2u))) ∧
      (u2a ∉ s.cfg.kcat → exec (.unknownU2a cmd rest) s = .next (s.respond (dec u2a .u2a)))) ∧
    ∀ i ∈ [Instr.unknownA2u cmd rest, .unknownU2a cmd rest],
      (rest = [] → exec i s = .next (s.respond (.err ⟨.truncated, 1⟩))) ∧
      (s.cfg.nMax < rest.length + 4 → exec i s = .next (s.respond (.err ⟨.badOperand, 0⟩)))

/-! ## The front-end -/

/-- R135: FE_PUSH into a buffer that is not full appends the byte and changes nothing else; into a full one it sets RXOVF,
discards the byte and answers `Err(FE_OVERFLOW, 0)`. -/
def Obligations.FePushAppendsOrOverflows : Prop :=
  ∀ (s : State) (d : Byte), s.cfg.hasFe = true → s.Inv →
    decodeCmd (d ++ 0x00#8 ++ 0x00#8 ++ 0x10#8) = .ok (.fePush d) ∧
    (s.fe.rxcnt.toNat < s.cfg.nMax → ∃ buf : List Byte,
      exec (.fePush d) s =
        .next (State.respond { s with fe := { s.fe with rxbuf := buf, rxcnt := s.fe.rxcnt + 1 } } (.ok .done)) ∧
      (s.fe.rxcnt + 1).toNat = s.fe.rxcnt.toNat + 1 ∧
      (∀ k, byteAt buf k = if k = s.fe.rxcnt.toNat then d else byteAt s.fe.rxbuf k) ∧
      buf.take (s.fe.rxcnt.toNat + 1) = s.fe.received ++ [d]) ∧
    (s.fe.rxcnt.toNat = s.cfg.nMax →
      exec (.fePush d) s = .next (State.respond { s with fe := { s.fe with rxovf := true } } (.err ⟨.feOverflow, 0⟩)))

/-- R138: FE_ABORT empties the receive buffer and clears RXOVF; no other register changes. -/
def Obligations.FeAbortDiscardsTheFrame : Prop :=
  decodeCmd 0x00000012 = .ok .feAbort ∧
  ∀ s : State, s.cfg.hasFe = true →
    exec .feAbort s = .next (State.respond { s with fe := { s.fe with rxcnt := 0, rxovf := false } } (.ok .done))

/-- R26 to R36, R139: FE_RD gives the byte at every mapped address, with the fields of FE_CTRL, FE_STATUS and FE_LAST_KIND where
the spec puts them, changes nothing, and gives BAD_OPERAND at a reserved address. -/
def Obligations.FeRdReadsTheRegisterMap : Prop :=
  ∀ (s : State) (a : Byte), s.cfg.hasFe = true →
    let n := a.toNat
    let reads (v : Byte) : Prop := exec (.feRd a) s = .next (s.respond (.ok (.byte v)))
    decodeCmd (0x00#8 ++ a ++ 0x00#8 ++ 0x13#8) = .ok (.feRd a) ∧
    (n = 0x00 → reads (BitVec.ofNat 8 s.fe.ctrl.toNat)) ∧
    (n = 0x01 → reads (BitVec.ofNat 8 (s.fe.srfValid.toNat + 2 * s.fe.lastCsumValid.toNat + 4 * s.fe.lastDir.code.toNat +
      8 * s.fe.lastDirValid.toNat + 16 * s.fe.rxovf.toNat + 32 * s.fe.lastSrfWritten.toNat))) ∧
    (n = 0x02 → reads (BitVec.ofNat 8 (s.fe.lastKind.code.toNat + 16 * s.fe.lastStatus.code.toNat))) ∧
    (n = 0x03 → reads s.fe.lastCmd) ∧ (n = 0x04 → reads s.fe.lastId) ∧ (n = 0x05 → reads s.fe.seq) ∧
    (n = 0x06 → reads s.fe.rxcnt) ∧ (n = 0x07 → reads s.fe.lastLen) ∧
    (∀ k : Fin 16, n = 0x10 + k → reads s.fe.srf[k]) ∧
    ((0x08 ≤ n ∧ n ≤ 0x0F) ∨ 0x20 ≤ n → exec (.feRd a) s = .next (s.respond (.err ⟨.badOperand, 0⟩)))

/-- R140: FE_WR to 0x00 sets FE_CTRL to D[2:0], ignoring bits 7:3; to any other address it gives BAD_OPERAND and writes
nothing. -/
def Obligations.FeWrWritesControlOnly : Prop :=
  ∀ (s : State) (a d : Byte), s.cfg.hasFe = true →
    decodeCmd (d ++ a ++ 0x00#8 ++ 0x14#8) = .ok (.feWr a d) ∧
    (a = 0x00 → exec (.feWr a d) s =
      .next (State.respond { s with fe := { s.fe with ctrl := BitVec.ofNat 3 (d.toNat % 8) } } (.ok .done))) ∧
    (a ≠ 0x00 → exec (.feWr a d) s = .next (s.respond (.err ⟨.badOperand, 0⟩)))

/-- R137, R136: FE_EOF of a frame that overflowed reports MALFORMED, OVERFLOW and FE_OVERFLOW, responds 0x84, empties the
buffer and never writes the SRF. FE_EOF of a frame that did not overflow decodes it as DECF does and updates every LAST_*
register from DECF's response, the checksum and the direction pair; the SRF takes the DSI exactly when the frame is a state-set
frame whose direction and checksum verdict FE_CTRL accepts. -/
def Obligations.FeEofEndsTheFrame : Prop :=
  decodeCmd 0x00000011 = .ok .feEof ∧
  ∀ s : State, s.cfg.hasFe = true →
    (s.fe.rxovf = true → exec .feEof s = .next (State.respond
      { s with fe := { s.fe with
          rxcnt := 0, rxovf := false, lastKind := .malformed, lastStatus := .feOverflow, lastId := 5,
          lastCmd := if 4 ≤ s.fe.rxcnt.toNat then byteAt s.fe.rxbuf 3 else 0, lastLen := s.fe.rxcnt,
          lastCsumValid := false, lastDir := .a2u, lastDirValid := false, lastSrfWritten := false,
          seq := s.fe.seq + 1 } }
      (.ok (.byte 0x84)))) ∧
    (s.Inv → s.fe.rxovf = false →
      let frame := s.fe.received
      let n := s.fe.rxcnt.toNat
      let asked := s.withFrame frame
      ∃ fe : FrontEnd,
        exec .feEof s = .next (State.respond { s with fe := fe }
          (.ok (.byte (BitVec.ofNat 8 (16 * fe.lastStatus.code.toNat + fe.lastKind.code.toNat))))) ∧
        fe.rxbuf = s.fe.rxbuf ∧ fe.rxcnt = 0 ∧ fe.rxovf = false ∧ fe.ctrl = s.fe.ctrl ∧ fe.seq = s.fe.seq + 1 ∧
        fe.lastLen = s.fe.rxcnt ∧ fe.lastCmd = (if 4 ≤ n then byteAt frame 3 else 0) ∧
        fe.lastCsumValid = decide (1 ≤ n ∧ xorFold frame = 0) ∧
        fe.lastDirValid = decide (3 ≤ n ∧ isDirectionPair (byteAt frame 1) (byteAt frame 2)) ∧
        (fe.lastDir = .u2a ↔ 3 ≤ n ∧ byteAt frame 1 = 0x01 ∧ byteAt frame 2 = 0x00) ∧
        (∀ e, exec .decf asked = .next (asked.respond (.err e)) →
          fe.lastKind = .malformed ∧ fe.lastId = e.reason ∧
          fe.lastStatus = (if e.status = .truncated then .truncated else .malformed) ∧
          fe.lastSrfWritten = false ∧ fe.srf = s.fe.srf ∧ fe.srfValid = s.fe.srfValid) ∧
        (∀ d, exec .decf asked = .next (asked.respond (.ok (.decoded d))) →
          fe.lastKind = d.kind ∧ fe.lastId = (if d.kind = .recognizedConstant then d.aux else 0) ∧
          fe.lastStatus = (if d.kind = .unknownCommand then .unknownCommand else .ok) ∧
          fe.lastCsumValid = d.csv ∧ fe.lastDir = d.dir ∧
          fe.lastSrfWritten = (decide (d.kind = .stateSet) &&
            (if d.dir = .a2u then s.fe.ctrl.getLsbD 1 else s.fe.ctrl.getLsbD 2) && (d.csv || s.fe.ctrl.getLsbD 0)) ∧
          fe.srf = (if fe.lastSrfWritten then d.dsi else s.fe.srf) ∧
          fe.srfValid = (s.fe.srfValid || fe.lastSrfWritten)))

/-- R70, R134, R141 (d): from an empty receive buffer, FE_SEND of a frame of at most NMAX bytes, run request by request through
the machine, leaves LAST_KIND and LAST_ID as DECF of that frame answers, and counts one frame end.
That a request takes two steps is the model's choice (log entry 4). -/
def Obligations.FeSendDecodesLikeDecf : Prop :=
  ∀ (s : State) (bytes : List Byte), s.Inv → s.cfg.hasFe = true → s.rst = false → s.cmd = none →
    s.waiting = feSend bytes → s.fe.rxcnt = 0 → s.fe.rxovf = false → bytes.length ≤ s.cfg.nMax →
    let asked := s.withFrame bytes
    ∃ t : State, Sys2Proof.core.run (2 * (bytes.length + 1)) s = .next t ∧
      t.waiting = [] ∧ t.cmd = none ∧ t.fe.rxcnt = 0 ∧ t.fe.seq = s.fe.seq + 1 ∧ t.fe.lastLen.toNat = bytes.length ∧
      (∀ e, exec .decf asked = .next (asked.respond (.err e)) → t.fe.lastKind = .malformed ∧ t.fe.lastId = e.reason) ∧
      (∀ d, exec .decf asked = .next (asked.respond (.ok (.decoded d))) →
        t.fe.lastKind = d.kind ∧ (d.kind = .recognizedConstant → t.fe.lastId = d.aux))

/-- R49, R27, R32, R141 (a): only FE_PUSH, FE_EOF, FE_ABORT and FE_WR change a front-end register; FE_CTRL is changed by FE_WR
alone; SEQ, the LAST_* registers and the SRF by FE_EOF alone, which adds 1 to SEQ modulo 256. -/
def Obligations.FrontEndWriters : Prop :=
  ∀ (i : Instr) (s t : State), exec i s = .next t →
    ((∀ d, i ≠ .fePush d) → i ≠ .feEof → i ≠ .feAbort → (∀ a d, i ≠ .feWr a d) → t.fe = s.fe) ∧
    ((∀ a d, i ≠ .feWr a d) → t.fe.ctrl = s.fe.ctrl) ∧
    (i ≠ .feEof → t.fe.lastKind = s.fe.lastKind ∧ t.fe.lastStatus = s.fe.lastStatus ∧ t.fe.lastCmd = s.fe.lastCmd ∧
      t.fe.lastId = s.fe.lastId ∧ t.fe.lastLen = s.fe.lastLen ∧ t.fe.lastCsumValid = s.fe.lastCsumValid ∧
      t.fe.lastDir = s.fe.lastDir ∧ t.fe.lastDirValid = s.fe.lastDirValid ∧
      t.fe.lastSrfWritten = s.fe.lastSrfWritten ∧ t.fe.seq = s.fe.seq ∧ t.fe.srfValid = s.fe.srfValid ∧
      t.fe.srf = s.fe.srf) ∧
    (i = .feEof → s.cfg.hasFe = true → t.fe.seq.toNat = (s.fe.seq.toNat + 1) % 256)

/-- R57, R146: where HAS_FE is false, every front-end operation gives `Err(ILLEGAL_OP, 0)`. -/
def Obligations.FrontEndAbsentIsIllegal : Prop :=
  ∀ (i : Instr) (s : State), isCoreOp i = false → s.cfg.hasFe = false →
    exec i s = .next (s.respond (.err ⟨.illegalOp, 0⟩))
end

