-- ==== Sys2Proof/Laws/Bits.lean ====
section
/-! SUPPORT. What the byte-string operations do: their lengths, the byte at each index, and the checksum fold. -/

namespace Sys2Proof

/-! ## Reading one byte -/

theorem byteAt_eq_getElem {p : List Byte} {i : Nat} (h : i < p.length) : byteAt p i = p[i] := by
  simp [byteAt, h]

theorem byteAt_of_length_le {p : List Byte} {i : Nat} (h : p.length ≤ i) : byteAt p i = 0 := by
  simp [byteAt, h]

@[simp] theorem byteAt_zeroBytes (n i : Nat) : byteAt (zeroBytes n) i = 0 := by
  by_cases h : i < n <;> simp [byteAt, zeroBytes, h]

/-! ## Lengths -/

@[simp] theorem zeroBytes_length (n : Nat) : (zeroBytes n).length = n := by simp [zeroBytes]

@[simp] theorem orAt_length (p : List Byte) (off : Nat) (b : Byte) : (orAt p off b).length = p.length := by simp [orAt]

@[simp] theorem orBytes_length (p q : List Byte) : (orBytes p q).length = min p.length q.length := by simp [orBytes]

@[simp] theorem fitBytes_length (n : Nat) (p : List Byte) : (fitBytes n p).length = n := by
  simp [fitBytes]; omega

/-! ## The byte at each index -/

theorem byteAt_orAt (p : List Byte) (off i : Nat) (b : Byte) (h : i < p.length) :
    byteAt (orAt p off b) i = byteAt p i ||| (if i = off then b else 0) := by
  by_cases hi : i = off
  · subst hi; simp [byteAt, orAt, h]
  · simp [byteAt, orAt, h, hi, Ne.symm hi]

theorem byteAt_orBytes (p q : List Byte) (i : Nat) (hp : i < p.length) (hq : i < q.length) :
    byteAt (orBytes p q) i = byteAt p i ||| byteAt q i := by
  simp [byteAt, orBytes, hp, hq]

/-- A bus reads the listed byte, or 0x00 where the list has ended. -/
theorem byteAt_fitBytes (n : Nat) (p : List Byte) (i : Nat) (h : i < n) : byteAt (fitBytes n p) i = byteAt p i := by
  unfold byteAt fitBytes
  by_cases hp : i < p.length
  · rw [List.getD_append _ _ _ _ (by simp; omega)]; simp [hp, h]
  · rw [List.getD_append_right _ _ _ _ (by simp; omega)]
    simp only [List.getD_eq_getElem?_getD, List.getElem?_replicate]
    simp only [List.getElem?_eq_none (Nat.le_of_not_lt hp)]
    split <;> rfl

/-- A list that fills the bus exactly is the bus value. -/
theorem fitBytes_self (p : List Byte) : fitBytes p.length p = p := by simp [fitBytes]

/-! ## The checksum -/

@[simp] theorem xorFold_nil : xorFold [] = 0 := rfl

theorem foldl_xor_start (x : Byte) (p : List Byte) : p.foldl (· ^^^ ·) x = x ^^^ xorFold p := by
  induction p generalizing x with
  | nil => simp
  | cons b p ih => simp only [List.foldl_cons, xorFold]; rw [ih, ih (0 ^^^ b)]; simp [BitVec.xor_assoc]

@[simp] theorem xorFold_cons (b : Byte) (p : List Byte) : xorFold (b :: p) = b ^^^ xorFold p := by
  simp only [xorFold, List.foldl_cons]; rw [foldl_xor_start]; simp [xorFold]

@[simp] theorem xorFold_append (p q : List Byte) : xorFold (p ++ q) = xorFold p ^^^ xorFold q := by
  simp only [xorFold, List.foldl_append]; rw [foldl_xor_start]; rfl

/-- R82: a frame verifies exactly when its last byte is the XOR of those before it. -/
@[simp] theorem verifyFrame_append (p : List Byte) (c : Byte) : verifyFrame (p ++ [c]) = (xorFold p == c) := by
  simp [verifyFrame]

@[simp] theorem verifyFrame_nil : verifyFrame [] = false := rfl

end Sys2Proof
end

