-- ==== Sys2Proof/Laws/State.lean ====
section
/-! SUPPORT. One lemma per field per update of the state and of the front-end registers, so that no later proof unfolds a record
update. -/

namespace Sys2Proof.Machine

open Sys2Proof

/-! ## The state -/

section
variable (s : State)

@[simp] theorem State.respond_cfg (r : Response) : (s.respond r).cfg = s.cfg := rfl
@[simp] theorem State.respond_rst (r : Response) : (s.respond r).rst = s.rst := rfl
@[simp] theorem State.respond_waiting (r : Response) : (s.respond r).waiting = s.waiting := rfl
@[simp] theorem State.respond_cmd (r : Response) : (s.respond r).cmd = none := rfl
@[simp] theorem State.respond_bus (r : Response) : (s.respond r).bus = Buses.quiet := rfl
@[simp] theorem State.respond_resp (r : Response) : (s.respond r).resp = some r := rfl
@[simp] theorem State.respond_fe (r : Response) : (s.respond r).fe = s.fe := rfl

@[simp] theorem State.accept_cfg (r : Request) (rest : List Request) : (s.accept r rest).cfg = s.cfg := rfl
@[simp] theorem State.accept_rst (r : Request) (rest : List Request) : (s.accept r rest).rst = s.rst := rfl
@[simp] theorem State.accept_waiting (r : Request) (rest : List Request) : (s.accept r rest).waiting = rest := rfl
@[simp] theorem State.accept_cmd (r : Request) (rest : List Request) : (s.accept r rest).cmd = some r.cmd := rfl
@[simp] theorem State.accept_bus (r : Request) (rest : List Request) : (s.accept r rest).bus = r.bus := rfl
@[simp] theorem State.accept_resp (r : Request) (rest : List Request) : (s.accept r rest).resp = none := rfl
@[simp] theorem State.accept_fe (r : Request) (rest : List Request) : (s.accept r rest).fe = s.fe := rfl

@[simp] theorem State.idle_cfg : s.idle.cfg = s.cfg := rfl
@[simp] theorem State.idle_rst : s.idle.rst = s.rst := rfl
@[simp] theorem State.idle_waiting : s.idle.waiting = s.waiting := rfl
@[simp] theorem State.idle_cmd : s.idle.cmd = s.cmd := rfl
@[simp] theorem State.idle_bus : s.idle.bus = s.bus := rfl
@[simp] theorem State.idle_resp : s.idle.resp = none := rfl
@[simp] theorem State.idle_fe : s.idle.fe = s.fe := rfl

@[simp] theorem State.assertReset_cfg : s.assertReset.cfg = s.cfg := rfl
@[simp] theorem State.assertReset_rst : s.assertReset.rst = false := rfl
@[simp] theorem State.assertReset_waiting : s.assertReset.waiting = s.waiting := rfl
@[simp] theorem State.assertReset_cmd : s.assertReset.cmd = none := rfl
@[simp] theorem State.assertReset_bus : s.assertReset.bus = Buses.quiet := rfl
@[simp] theorem State.assertReset_resp : s.assertReset.resp = none := rfl
@[simp] theorem State.assertReset_fe : s.assertReset.fe = FrontEnd.reset s.cfg.nMax := rfl

@[simp] theorem State.setFe_cfg (fe : FrontEnd) : (s.setFe fe).cfg = s.cfg := rfl
@[simp] theorem State.setFe_rst (fe : FrontEnd) : (s.setFe fe).rst = s.rst := rfl
@[simp] theorem State.setFe_waiting (fe : FrontEnd) : (s.setFe fe).waiting = s.waiting := rfl
@[simp] theorem State.setFe_cmd (fe : FrontEnd) : (s.setFe fe).cmd = s.cmd := rfl
@[simp] theorem State.setFe_bus (fe : FrontEnd) : (s.setFe fe).bus = s.bus := rfl
@[simp] theorem State.setFe_resp (fe : FrontEnd) : (s.setFe fe).resp = s.resp := rfl
@[simp] theorem State.setFe_fe (fe : FrontEnd) : (s.setFe fe).fe = fe := rfl

@[simp] theorem State.loadCode_cfg (code : Code) : (s.loadCode code).cfg = s.cfg := rfl
@[simp] theorem State.loadCode_rst (code : Code) : (s.loadCode code).rst = false := rfl
@[simp] theorem State.loadCode_waiting (code : Code) : (s.loadCode code).waiting = s.waiting := rfl
@[simp] theorem State.loadCode_cmd (code : Code) : (s.loadCode code).cmd = some (requestOfCode code s.bus).cmd := rfl
@[simp] theorem State.loadCode_bus (code : Code) : (s.loadCode code).bus = (requestOfCode code s.bus).bus := rfl
@[simp] theorem State.loadCode_resp (code : Code) : (s.loadCode code).resp = s.resp := rfl
@[simp] theorem State.loadCode_fe (code : Code) : (s.loadCode code).fe = s.fe := rfl

end

/-! ## The front-end registers -/

section
variable (fe : FrontEnd)

@[simp] theorem FrontEnd.pushByte_rxbuf (d : Byte) : (fe.pushByte d).rxbuf = fe.rxbuf.set fe.rxcnt.toNat d := rfl
@[simp] theorem FrontEnd.pushByte_rxcnt (d : Byte) : (fe.pushByte d).rxcnt = fe.rxcnt + 1 := rfl
@[simp] theorem FrontEnd.pushByte_rxovf (d : Byte) : (fe.pushByte d).rxovf = fe.rxovf := rfl
@[simp] theorem FrontEnd.pushByte_ctrl (d : Byte) : (fe.pushByte d).ctrl = fe.ctrl := rfl
@[simp] theorem FrontEnd.pushByte_lastKind (d : Byte) : (fe.pushByte d).lastKind = fe.lastKind := rfl
@[simp] theorem FrontEnd.pushByte_lastStatus (d : Byte) : (fe.pushByte d).lastStatus = fe.lastStatus := rfl
@[simp] theorem FrontEnd.pushByte_lastCmd (d : Byte) : (fe.pushByte d).lastCmd = fe.lastCmd := rfl
@[simp] theorem FrontEnd.pushByte_lastId (d : Byte) : (fe.pushByte d).lastId = fe.lastId := rfl
@[simp] theorem FrontEnd.pushByte_lastLen (d : Byte) : (fe.pushByte d).lastLen = fe.lastLen := rfl
@[simp] theorem FrontEnd.pushByte_lastCsumValid (d : Byte) : (fe.pushByte d).lastCsumValid = fe.lastCsumValid := rfl
@[simp] theorem FrontEnd.pushByte_lastDir (d : Byte) : (fe.pushByte d).lastDir = fe.lastDir := rfl
@[simp] theorem FrontEnd.pushByte_lastDirValid (d : Byte) : (fe.pushByte d).lastDirValid = fe.lastDirValid := rfl
@[simp] theorem FrontEnd.pushByte_lastSrfWritten (d : Byte) : (fe.pushByte d).lastSrfWritten = fe.lastSrfWritten := rfl
@[simp] theorem FrontEnd.pushByte_seq (d : Byte) : (fe.pushByte d).seq = fe.seq := rfl
@[simp] theorem FrontEnd.pushByte_srfValid (d : Byte) : (fe.pushByte d).srfValid = fe.srfValid := rfl
@[simp] theorem FrontEnd.pushByte_srf (d : Byte) : (fe.pushByte d).srf = fe.srf := rfl

@[simp] theorem FrontEnd.overflow_rxbuf : fe.overflow.rxbuf = fe.rxbuf := rfl
@[simp] theorem FrontEnd.overflow_rxcnt : fe.overflow.rxcnt = fe.rxcnt := rfl
@[simp] theorem FrontEnd.overflow_rxovf : fe.overflow.rxovf = true := rfl
@[simp] theorem FrontEnd.overflow_ctrl : fe.overflow.ctrl = fe.ctrl := rfl
@[simp] theorem FrontEnd.overflow_lastKind : fe.overflow.lastKind = fe.lastKind := rfl
@[simp] theorem FrontEnd.overflow_lastStatus : fe.overflow.lastStatus = fe.lastStatus := rfl
@[simp] theorem FrontEnd.overflow_lastCmd : fe.overflow.lastCmd = fe.lastCmd := rfl
@[simp] theorem FrontEnd.overflow_lastId : fe.overflow.lastId = fe.lastId := rfl
@[simp] theorem FrontEnd.overflow_lastLen : fe.overflow.lastLen = fe.lastLen := rfl
@[simp] theorem FrontEnd.overflow_lastCsumValid : fe.overflow.lastCsumValid = fe.lastCsumValid := rfl
@[simp] theorem FrontEnd.overflow_lastDir : fe.overflow.lastDir = fe.lastDir := rfl
@[simp] theorem FrontEnd.overflow_lastDirValid : fe.overflow.lastDirValid = fe.lastDirValid := rfl
@[simp] theorem FrontEnd.overflow_lastSrfWritten : fe.overflow.lastSrfWritten = fe.lastSrfWritten := rfl
@[simp] theorem FrontEnd.overflow_seq : fe.overflow.seq = fe.seq := rfl
@[simp] theorem FrontEnd.overflow_srfValid : fe.overflow.srfValid = fe.srfValid := rfl
@[simp] theorem FrontEnd.overflow_srf : fe.overflow.srf = fe.srf := rfl

@[simp] theorem FrontEnd.clearRx_rxbuf : fe.clearRx.rxbuf = fe.rxbuf := rfl
@[simp] theorem FrontEnd.clearRx_rxcnt : fe.clearRx.rxcnt = 0 := rfl
@[simp] theorem FrontEnd.clearRx_rxovf : fe.clearRx.rxovf = false := rfl
@[simp] theorem FrontEnd.clearRx_ctrl : fe.clearRx.ctrl = fe.ctrl := rfl
@[simp] theorem FrontEnd.clearRx_lastKind : fe.clearRx.lastKind = fe.lastKind := rfl
@[simp] theorem FrontEnd.clearRx_lastStatus : fe.clearRx.lastStatus = fe.lastStatus := rfl
@[simp] theorem FrontEnd.clearRx_lastCmd : fe.clearRx.lastCmd = fe.lastCmd := rfl
@[simp] theorem FrontEnd.clearRx_lastId : fe.clearRx.lastId = fe.lastId := rfl
@[simp] theorem FrontEnd.clearRx_lastLen : fe.clearRx.lastLen = fe.lastLen := rfl
@[simp] theorem FrontEnd.clearRx_lastCsumValid : fe.clearRx.lastCsumValid = fe.lastCsumValid := rfl
@[simp] theorem FrontEnd.clearRx_lastDir : fe.clearRx.lastDir = fe.lastDir := rfl
@[simp] theorem FrontEnd.clearRx_lastDirValid : fe.clearRx.lastDirValid = fe.lastDirValid := rfl
@[simp] theorem FrontEnd.clearRx_lastSrfWritten : fe.clearRx.lastSrfWritten = fe.lastSrfWritten := rfl
@[simp] theorem FrontEnd.clearRx_seq : fe.clearRx.seq = fe.seq := rfl
@[simp] theorem FrontEnd.clearRx_srfValid : fe.clearRx.srfValid = fe.srfValid := rfl
@[simp] theorem FrontEnd.clearRx_srf : fe.clearRx.srf = fe.srf := rfl

@[simp] theorem FrontEnd.setCtrl_rxbuf (d : Byte) : (fe.setCtrl d).rxbuf = fe.rxbuf := rfl
@[simp] theorem FrontEnd.setCtrl_rxcnt (d : Byte) : (fe.setCtrl d).rxcnt = fe.rxcnt := rfl
@[simp] theorem FrontEnd.setCtrl_rxovf (d : Byte) : (fe.setCtrl d).rxovf = fe.rxovf := rfl
@[simp] theorem FrontEnd.setCtrl_ctrl (d : Byte) : (fe.setCtrl d).ctrl = d.extractLsb' 0 3 := rfl
@[simp] theorem FrontEnd.setCtrl_lastKind (d : Byte) : (fe.setCtrl d).lastKind = fe.lastKind := rfl
@[simp] theorem FrontEnd.setCtrl_lastStatus (d : Byte) : (fe.setCtrl d).lastStatus = fe.lastStatus := rfl
@[simp] theorem FrontEnd.setCtrl_lastCmd (d : Byte) : (fe.setCtrl d).lastCmd = fe.lastCmd := rfl
@[simp] theorem FrontEnd.setCtrl_lastId (d : Byte) : (fe.setCtrl d).lastId = fe.lastId := rfl
@[simp] theorem FrontEnd.setCtrl_lastLen (d : Byte) : (fe.setCtrl d).lastLen = fe.lastLen := rfl
@[simp] theorem FrontEnd.setCtrl_lastCsumValid (d : Byte) : (fe.setCtrl d).lastCsumValid = fe.lastCsumValid := rfl
@[simp] theorem FrontEnd.setCtrl_lastDir (d : Byte) : (fe.setCtrl d).lastDir = fe.lastDir := rfl
@[simp] theorem FrontEnd.setCtrl_lastDirValid (d : Byte) : (fe.setCtrl d).lastDirValid = fe.lastDirValid := rfl
@[simp] theorem FrontEnd.setCtrl_lastSrfWritten (d : Byte) : (fe.setCtrl d).lastSrfWritten = fe.lastSrfWritten := rfl
@[simp] theorem FrontEnd.setCtrl_seq (d : Byte) : (fe.setCtrl d).seq = fe.seq := rfl
@[simp] theorem FrontEnd.setCtrl_srfValid (d : Byte) : (fe.setCtrl d).srfValid = fe.srfValid := rfl
@[simp] theorem FrontEnd.setCtrl_srf (d : Byte) : (fe.setCtrl d).srf = fe.srf := rfl

@[simp] theorem FrontEnd.endFrame_rxbuf (c : Config) : (fe.endFrame c).rxbuf = fe.rxbuf := rfl
@[simp] theorem FrontEnd.endFrame_rxcnt (c : Config) : (fe.endFrame c).rxcnt = 0 := rfl
@[simp] theorem FrontEnd.endFrame_rxovf (c : Config) : (fe.endFrame c).rxovf = false := rfl
@[simp] theorem FrontEnd.endFrame_ctrl (c : Config) : (fe.endFrame c).ctrl = fe.ctrl := rfl
@[simp] theorem FrontEnd.endFrame_lastKind (c : Config) : (fe.endFrame c).lastKind = (frameEnd c fe).codes.kind := rfl
@[simp] theorem FrontEnd.endFrame_lastStatus (c : Config) : (fe.endFrame c).lastStatus = (frameEnd c fe).codes.status := rfl
@[simp] theorem FrontEnd.endFrame_lastCmd (c : Config) :
    (fe.endFrame c).lastCmd = if 4 ≤ fe.rxcnt.toNat then byteAt fe.rxbuf 3 else 0 := rfl
@[simp] theorem FrontEnd.endFrame_lastId (c : Config) : (fe.endFrame c).lastId = (frameEnd c fe).codes.id := rfl
@[simp] theorem FrontEnd.endFrame_lastLen (c : Config) : (fe.endFrame c).lastLen = fe.rxcnt := rfl
@[simp] theorem FrontEnd.endFrame_lastCsumValid (c : Config) : (fe.endFrame c).lastCsumValid = (frameEnd c fe).csv := rfl
@[simp] theorem FrontEnd.endFrame_lastDir (c : Config) : (fe.endFrame c).lastDir = (frameEnd c fe).dir.getD .a2u := rfl
@[simp] theorem FrontEnd.endFrame_lastDirValid (c : Config) : (fe.endFrame c).lastDirValid = (frameEnd c fe).dir.isSome := rfl
@[simp] theorem FrontEnd.endFrame_lastSrfWritten (c : Config) :
    (fe.endFrame c).lastSrfWritten = (frameEnd c fe).written.isSome := rfl
@[simp] theorem FrontEnd.endFrame_seq (c : Config) : (fe.endFrame c).seq = fe.seq + 1 := rfl
@[simp] theorem FrontEnd.endFrame_srfValid (c : Config) :
    (fe.endFrame c).srfValid = (fe.srfValid || (frameEnd c fe).written.isSome) := rfl
@[simp] theorem FrontEnd.endFrame_srf (c : Config) : (fe.endFrame c).srf = (frameEnd c fe).written.getD fe.srf := rfl

end

end Sys2Proof.Machine
end

