-- ==== Sys2Proof/Laws/Ops.lean ====
section
/-! SUPPORT. For each shared operation, once, everything it can do. -/

namespace Sys2Proof.Machine

open Sys2Proof

/-! ## The response -/

@[simp] theorem State.returnOk_eq (s : State) (r : Result) : s.returnOk r = .next (s.respond (.ok r)) := rfl

@[simp] theorem State.raise_eq (s : State) (e : Error) : s.raise e = .next (s.respond (.err e)) := rfl

@[simp] theorem State.answer_ok (s : State) (r : Result) : s.answer (.ok r) = .next (s.respond (.ok r)) := rfl

@[simp] theorem State.answer_error (s : State) (e : Error) : s.answer (.error e) = .next (s.respond (.err e)) := rfl

/-- An operation's answer always ends in a next state, which differs from `s` at the ports only. -/
theorem State.answer_next {s t : State} {a : Except Error Result} (h : s.answer a = .next t) :
    t = s.respond (responseOf a) := by
  simpa [State.answer] using h.symm

@[simp] theorem State.ifFrontEnd_true {s : State} (h : s.cfg.hasFe = true) (k : Host.Outcome State Fault Refusal) :
    s.ifFrontEnd k = k := by simp [State.ifFrontEnd, h]

@[simp] theorem State.ifFrontEnd_false {s : State} (h : s.cfg.hasFe = false) (k : Host.Outcome State Fault Refusal) :
    s.ifFrontEnd k = .next (s.respond (.err illegalOp)) := by simp [State.ifFrontEnd, h]

/-- A front-end operation runs where HAS_FE is true and is illegal otherwise. -/
theorem State.ifFrontEnd_cases {s t : State} {k : Host.Outcome State Fault Refusal} (h : s.ifFrontEnd k = .next t) :
    (s.cfg.hasFe = true ∧ k = .next t) ∨ (s.cfg.hasFe = false ∧ t = s.respond (.err illegalOp)) := by
  cases hfe : s.cfg.hasFe with
  | true => exact .inl ⟨rfl, by simpa [hfe] using h⟩
  | false => exact .inr ⟨rfl, by simpa [hfe] using h.symm⟩

/-! ## The operands -/

/-- R42: the frame operand is the first LEN bytes of the bus, or BAD_OPERAND. -/
theorem frameOperand_cases (c : Config) (b : Buses) :
    (b.len.toNat ≤ c.nMax ∧ frameOperand c b = .ok (fitBytes b.len.toNat b.frame)) ∨
    (c.nMax < b.len.toNat ∧ frameOperand c b = .error badOperand) := by
  unfold frameOperand
  by_cases h : c.nMax < b.len.toNat
  · exact .inr ⟨h, by simp [h]⟩
  · exact .inl ⟨Nat.le_of_not_lt h, by simp [h]⟩

theorem frameOperand_of_le {c : Config} {b : Buses} (h : b.len.toNat ≤ c.nMax) :
    frameOperand c b = .ok (fitBytes b.len.toNat b.frame) := by simp [frameOperand, Nat.not_lt.mpr h]

theorem frameOperand_of_lt {c : Config} {b : Buses} (h : c.nMax < b.len.toNat) :
    frameOperand c b = .error badOperand := by simp [frameOperand, h]

@[simp] theorem payloadOperand_length (c : Config) (b : Buses) : (payloadOperand c b).length = c.pLen := by
  simp [payloadOperand]

/-! ## Packing keeps the payload's length -/

section
variable (p : List Byte)

@[simp] theorem packBool_length (e : BoolEntry) (v : Bool) : (packBool e v p).length = p.length := by
  unfold packBool; split <;> simp

@[simp] theorem packEnum_length {n : Nat} (e : EnumEntry n) (v : Fin n) : (packEnum e v p).length = p.length := by
  simp [packEnum]

@[simp] theorem packWind_length (e : WindEntry) (v : Fin 8) : (packWind e v p).length = p.length := by simp [packWind]

@[simp] theorem packVane_length {n : Nat} (e : VaneEntry n) (v : Fin n) : (packVane e v p).length = p.length := by
  unfold packVane; split <;> simp

@[simp] theorem packTemp_length (e : TempEntry) (i f : BitVec 4) : (packTemp e i f p).length = p.length := by
  simp [packTemp]

end

theorem packVariant_ok {α : Type} {v : Option α} {pack : α → List Byte} {p : List Byte} (h : packVariant v pack = .ok p) :
    ∃ x, v = some x ∧ p = pack x := by
  cases v with
  | none => simp [packVariant] at h
  | some x => exact ⟨x, rfl, by simpa [packVariant] using h.symm⟩

/-! ## Classification -/

/-- R124: a StateSet's payload is P_LEN bytes, taken from a frame of N_SS bytes with a direction and the state-set command. -/
theorem classify_stateSet {c : Config} {frame p : List Byte} (h : classify c frame = .stateSet p) :
    frame.length = c.nSs ∧ p = (frame.drop 4).take c.pLen ∧ p.length = c.pLen ∧ byteAt frame 0 = 0xBB ∧
    isDirectionPair (byteAt frame 1) (byteAt frame 2) ∧ byteAt frame 3 = 0x03 := by
  unfold classify at h
  split at h
  · cases h
  split_ifs at h with hshort h0 hdir hcmd hlt hgt
  have hlen : frame.length = c.nSs := by omega
  cases h
  refine ⟨hlen, rfl, ?_, not_not.mp h0, hdir, hcmd⟩
  simp only [List.length_take, List.length_drop, hlen, Config.nSs]
  omega

/-- R124: classification never reports an overflow; that reason is FE_EOF's own (R143). -/
theorem classify_ne_overflow (c : Config) (frame : List Byte) : classify c frame ≠ .malformed .overflow := by
  unfold classify
  repeat' split
  all_goals simp

/-! ## Decoding a frame -/

/-- R128: DECF's error responses: TRUNCATED for a frame that is too short, MALFORMED with the reason otherwise. -/
theorem decodeFrame_error {c : Config} {frame : List Byte} {e : Error} (h : decodeFrame c frame = .error e) :
    ∃ r, classify c frame = .malformed r ∧ e = ⟨if r = .tooShort then .truncated else .malformed, r.code⟩ := by
  unfold decodeFrame at h
  split at h
  · rename_i hk; exact ⟨_, hk, by cases h; rfl⟩
  · rename_i r hr hk
    refine ⟨r, hk, ?_⟩
    cases h
    have : r ≠ .tooShort := fun hh => hr (hh ▸ rfl)
    simp [this]
  all_goals cases h

/-- R128: DECF's result of a frame that is not malformed. -/
theorem decodeFrame_ok {c : Config} {frame : List Byte} {d : DecodedFrame} (h : decodeFrame c frame = .ok d) :
    d.kind = (classify c frame).kindCode ∧ d.aux = (classify c frame).aux ∧
    d.dir = (frameDirection frame).getD .a2u ∧ d.csv = verifyFrame frame ∧
    ((∃ p, classify c frame = .stateSet p ∧ d.hasState = true ∧ d.dsi = (decodeState c p).dsi ∧
        d.padmap = (decodeState c p).padmap) ∨
     (((∃ i, classify c frame = .recognizedConstant i) ∨ ∃ x, classify c frame = .unknownCommand x) ∧ d.hasState = false ∧
        d.dsi = Vector.replicate 16 0 ∧ d.padmap = List.replicate c.pLen false)) := by
  unfold decodeFrame at h
  split at h
  · cases h
  · cases h
  · rename_i p hk
    cases h
    exact ⟨rfl, rfl, rfl, rfl, .inl ⟨p, hk, rfl, rfl, rfl⟩⟩
  · rename_i i hk
    cases h
    exact ⟨rfl, rfl, rfl, rfl, .inr ⟨.inl ⟨i, hk⟩, rfl, rfl, rfl⟩⟩
  · rename_i x hk
    cases h
    exact ⟨rfl, rfl, rfl, rfl, .inr ⟨.inr ⟨x, hk⟩, rfl, rfl, rfl⟩⟩

/-! ## The receive buffer keeps its form -/

/-- R25: RXBUF has NMAX bytes and RXCNT is in 0..NMAX. -/
def FrontEnd.rxWf (c : Config) (fe : FrontEnd) : Bool := fe.rxbuf.length == c.nMax && decide (fe.rxcnt.toNat ≤ c.nMax)

theorem FrontEnd.reset_rxWf (c : Config) : (FrontEnd.reset c.nMax).rxWf c = true := by
  simp [FrontEnd.rxWf, FrontEnd.reset]

theorem byte_succ_toNat {b : Byte} (h : b.toNat < 255) : (b + 1).toNat = b.toNat + 1 := by
  have h1 : (1 : Byte).toNat = 1 := rfl
  rw [BitVec.toNat_add, h1]; omega

theorem FrontEnd.pushByte_rxWf {c : Config} {fe : FrontEnd} (d : Byte) (h : fe.rxWf c = true)
    (hlt : fe.rxcnt.toNat < c.nMax) (h255 : c.nMax ≤ 255) : (fe.pushByte d).rxWf c = true := by
  simp only [FrontEnd.rxWf, Bool.and_eq_true, beq_iff_eq, decide_eq_true_eq] at h ⊢
  refine ⟨by simpa using h.1, ?_⟩
  rw [FrontEnd.pushByte_rxcnt, byte_succ_toNat (by omega)]
  omega

theorem FrontEnd.overflow_rxWf {c : Config} {fe : FrontEnd} (h : fe.rxWf c = true) : fe.overflow.rxWf c = true := h

theorem FrontEnd.setCtrl_rxWf {c : Config} {fe : FrontEnd} (d : Byte) (h : fe.rxWf c = true) :
    (fe.setCtrl d).rxWf c = true := h

theorem FrontEnd.clearRx_rxWf {c : Config} {fe : FrontEnd} (h : fe.rxWf c = true) : fe.clearRx.rxWf c = true := by
  simp only [FrontEnd.rxWf, Bool.and_eq_true, beq_iff_eq, decide_eq_true_eq] at h ⊢
  exact ⟨h.1, Nat.zero_le _⟩

theorem FrontEnd.endFrame_rxWf {c : Config} {fe : FrontEnd} (h : fe.rxWf c = true) : (fe.endFrame c).rxWf c = true := by
  simp only [FrontEnd.rxWf, Bool.and_eq_true, beq_iff_eq, decide_eq_true_eq] at h ⊢
  exact ⟨h.1, Nat.zero_le _⟩

/-- R135: after a push that fits, the valid bytes are those before and then the pushed byte. -/
theorem FrontEnd.received_pushByte {c : Config} {fe : FrontEnd} (d : Byte) (h : fe.rxbuf.length = c.nMax)
    (hlt : fe.rxcnt.toNat < c.nMax) (h255 : c.nMax ≤ 255) : (fe.pushByte d).received = fe.received ++ [d] := by
  have hn : (fe.rxcnt + 1).toNat = fe.rxcnt.toNat + 1 := byte_succ_toNat (by omega)
  simp only [FrontEnd.received, FrontEnd.pushByte_rxbuf, FrontEnd.pushByte_rxcnt, hn]
  have hset : (fe.rxbuf.take fe.rxcnt.toNat).set fe.rxcnt.toNat d = fe.rxbuf.take fe.rxcnt.toNat :=
    List.set_eq_of_length_le (by simp)
  rw [List.take_add_one]
  simp [List.take_set, hset, h, hlt]

/-! ## One step -/

/-- Everything a step can do. -/
theorem step_cases {s t : State} (h : step s = .next t) :
    (s.rst = true ∧ t = s.assertReset) ∨
    (∃ w i, s.rst = false ∧ s.cmd = some w ∧ fetch s.cfg w s.bus = .ok i ∧ exec i s = .next t) ∨
    (∃ w e, s.rst = false ∧ s.cmd = some w ∧ fetch s.cfg w s.bus = .error e ∧ t = s.respond (.err illegalOp)) ∨
    (∃ r rest, s.rst = false ∧ s.cmd = none ∧ s.waiting = r :: rest ∧ t = s.accept r rest) ∨
    (s.rst = false ∧ s.cmd = none ∧ s.waiting = [] ∧ t = s.idle) := by
  unfold step at h
  split at h
  · rename_i hr; cases h; exact .inl ⟨hr, rfl⟩
  · rename_i hr
    have hr' : s.rst = false := by simpa using hr
    split at h
    · rename_i w hw
      split at h
      · rename_i i hi; exact .inr (.inl ⟨w, i, hr', hw, hi, h⟩)
      · rename_i e he; cases h; exact .inr (.inr (.inl ⟨w, e, hr', hw, he, rfl⟩))
    · rename_i hw
      split at h
      · rename_i r rest hrest; cases h; exact .inr (.inr (.inr (.inl ⟨r, rest, hr', hw, hrest, rfl⟩)))
      · rename_i hrest; cases h; exact .inr (.inr (.inr (.inr ⟨hr', hw, hrest, rfl⟩)))

end Sys2Proof.Machine
end

