-- ==== Sys2Proof/Laws/PerInstr.lean ====
section
/-! SUPPORT. Facts about each instruction as it is written: decoding its encoding gives it back. One lemma per constructor. -/

namespace Sys2Proof

/-! ## The fields of a command word are the fields it was made of (R54) -/

section
variable (op : BitVec 5) (fid : BitVec 4) (a d : Byte)

theorem getLsbD_cmdWord (i : Nat) : (cmdWord op fid a d).getLsbD i =
    if i < 5 then op.getLsbD i else if i < 8 then false else if i < 12 then fid.getLsbD (i - 8)
    else if i < 16 then false else if i < 24 then a.getLsbD (i - 16) else d.getLsbD (i - 24) := by
  change BitVec.getLsbD (w := 8 + 8 + 4 + 4 + 3 + 5) (d ++ a ++ 0#4 ++ fid ++ 0#3 ++ op) i = _
  simp only [BitVec.getLsbD_append, BitVec.getLsbD_zero]
  repeat' split
  all_goals first | rfl | omega

@[simp] theorem cmdOp_cmdWord : cmdOp (cmdWord op fid a d) = op := by
  apply BitVec.eq_of_getLsbD_eq; intro i hi
  simp [cmdOp, getLsbD_cmdWord, hi]

@[simp] theorem cmdFid_cmdWord : cmdFid (cmdWord op fid a d) = fid := by
  apply BitVec.eq_of_getLsbD_eq; intro i hi
  simp (disch := omega) only [cmdFid, BitVec.getLsbD_extractLsb', getLsbD_cmdWord, hi, if_neg, if_pos]
  simp

@[simp] theorem cmdA_cmdWord : cmdA (cmdWord op fid a d) = a := by
  apply BitVec.eq_of_getLsbD_eq; intro i hi
  simp (disch := omega) only [cmdA, BitVec.getLsbD_extractLsb', getLsbD_cmdWord, hi, if_neg, if_pos]
  simp

@[simp] theorem cmdD_cmdWord : cmdD (cmdWord op fid a d) = d := by
  apply BitVec.eq_of_getLsbD_eq; intro i hi
  simp (disch := omega) only [cmdD, BitVec.getLsbD_extractLsb', getLsbD_cmdWord, hi, if_neg]
  simp

@[simp] theorem cmdReserved_cmdWord : cmdReserved (cmdWord op fid a d) = 0 := by
  apply BitVec.eq_of_getLsbD_eq; intro i hi
  simp only [cmdReserved, BitVec.getLsbD_append, BitVec.getLsbD_extractLsb', getLsbD_cmdWord]
  split
  · simp (disch := omega) only [if_neg, if_pos]; simp
  · simp (disch := omega) only [if_neg, if_pos]; simp

end

namespace Laws.RoundTrip

/-- Decoding the encoding of a well-formed instruction gives the instruction. -/
def Statement (i : Instr) : Prop := i.wellFormed = true → decode (encode i) = .ok i

theorem tquant : Statement .tquant := by intro _; simp [decode, encode, decodeCmd, ifUnusedZero]

theorem tenc : Statement .tenc := by intro _; simp [decode, encode, decodeCmd, ifUnusedZero]

theorem tdec : Statement .tdec := by intro _; simp [decode, encode, decodeCmd, ifUnusedZero]

theorem csum : Statement .csum := by intro _; simp [decode, encode, decodeCmd, ifUnusedZero]

theorem cver : Statement .cver := by intro _; simp [decode, encode, decodeCmd, ifUnusedZero]

theorem fpack (fid : BitVec 4) : Statement (.fpack fid) := by intro _; simp [decode, encode, decodeCmd, ifUnusedZero]

theorem funpack (fid : BitVec 4) : Statement (.funpack fid) := by intro _; simp [decode, encode, decodeCmd, ifUnusedZero]

theorem encf : Statement .encf := by intro _; simp [decode, encode, decodeCmd, ifUnusedZero]

theorem cls : Statement .cls := by intro _; simp [decode, encode, decodeCmd, ifUnusedZero]

theorem dir : Statement .dir := by intro _; simp [decode, encode, decodeCmd, ifUnusedZero]

theorem decs : Statement .decs := by intro _; simp [decode, encode, decodeCmd, ifUnusedZero]

theorem decf : Statement .decf := by intro _; simp [decode, encode, decodeCmd, ifUnusedZero]

theorem fePush (d : Byte) : Statement (.fePush d) := by intro _; simp [decode, encode, decodeCmd, ifUnusedZero]

theorem feEof : Statement .feEof := by intro _; simp [decode, encode, decodeCmd, ifUnusedZero]

theorem feAbort : Statement .feAbort := by intro _; simp [decode, encode, decodeCmd, ifUnusedZero]

theorem feRd (a : Byte) : Statement (.feRd a) := by intro _; simp [decode, encode, decodeCmd, ifUnusedZero]

theorem feWr (a d : Byte) : Statement (.feWr a d) := by intro _; simp [decode, encode, decodeCmd, ifUnusedZero]

theorem keepaliveK0 : Statement .keepaliveK0 := by intro _; decide

theorem statesetA2u (rest : List Byte) : Statement (.statesetA2u rest) := by intro _; simp [decode, encode, decodeFrameRow]

theorem statesetU2a (rest : List Byte) : Statement (.statesetU2a rest) := by intro _; simp [decode, encode, decodeFrameRow]

theorem unknownA2u (cmd : Byte) (rest : List Byte) : Statement (.unknownA2u cmd rest) := by
  intro h
  simp only [Instr.wellFormed, Bool.and_eq_true, bne_iff_ne, ne_eq, Bool.not_eq_true'] at h
  obtain ⟨⟨hcmd, hk0⟩, -⟩ := h
  simp only [Bool.and_eq_false_iff, beq_eq_false_iff_ne] at hk0
  have hk : ¬(cmd = 0x04#8 ∧ rest = keepaliveTail) := by tauto
  have hcmd' : ¬cmd = 0x03#8 := hcmd
  simp [decode, encode, decodeFrameRow, hcmd', hk]

theorem unknownU2a (cmd : Byte) (rest : List Byte) : Statement (.unknownU2a cmd rest) := by
  intro h
  simp only [Instr.wellFormed, Bool.and_eq_true, bne_iff_ne, ne_eq] at h
  have hcmd : ¬cmd = 0x03#8 := h.1
  simp [decode, encode, decodeFrameRow, hcmd]

end Laws.RoundTrip

end Sys2Proof
end

