-- ==== Sys2Proof/Tests/Slice0.lean ====
section
/-! SUPPORT. The model's own tests: the checks of WellFormed, every constructor's word written out from the spec's encoding
tables, a few vectors of spec file 95, and for each statement with hypotheses a state that meets them (theorems witness_…). -/

namespace Sys2Proof.Tests

open Sys2Proof Sys2Proof.Machine

/-! ## Helpers -/

/-- The configuration of spec file 95 (F = 8, P_LEN = 30, NMAX = 64, `FT_EX`), with a second catalog entry. -/
def cfg : Config where
  fracBits := 8
  pLen := 30
  nMax := 64
  ft := FieldTable.fixture
  kcatMore := [[0xBB, 0x01, 0x00, 0x0A, 0x55, 0xE5]]
  hasFe := true
  latency := []
  attach := .handshake

/-- The block right after reset, with these operand buses. -/
def st (b : Buses) : State := { State.resetOf cfg with bus := b }

def s0 : State := st Buses.quiet

/-- A frame on FRAME and its length on LEN (R69). -/
def withFrame (bytes : List Byte) : State := s0.withFrame bytes

def withTemp (t : BitVec 16) : State := st { Buses.quiet with temp := t }
def withNib (b : Byte) : State := st { Buses.quiet with nib := b }
def withState (w : Word) (t : BitVec 16) : State := st { Buses.quiet with state := w, temp := t }

/-- An all-zero payload but for these bytes. -/
def withPayload (l : List (Nat × Byte)) : State :=
  s0.withPayload (l.foldl (fun p c => orAt p c.1 c.2) (zeroBytes 30))

def withFe (fe : FrontEnd) : State := { s0 with fe := fe }

/-- The state without a front-end. -/
def noFe : State := State.resetOf { cfg with hasFe := false }

def respOf (o : Host.Outcome State Fault Refusal) : Option Response :=
  match o with
  | .next t => t.resp
  | .fault _ => none
  | .refused _ => none

def feOf (o : Host.Outcome State Fault Refusal) : Option FrontEnd :=
  match o with
  | .next t => some t.fe
  | .fault _ => none
  | .refused _ => none

/-- Spec file 95, L1.1. -/
def k0 : List Byte := [0xBB, 0x00, 0x01, 0x04, 0x02, 0x01, 0x00, 0xBD]

/-- Spec file 95, L1.2: payload and checksum of the state-set literal. -/
def l12Rest : List Byte :=
  [0x1D, 0x00, 0x00, 0x64, 0x01, 0x5C, 0x00, 0x00, 0x80, 0x00, 0x00, 0x00, 0x00, 0x00, 0x00, 0x00, 0x00, 0x00, 0x00, 0x00,
   0x00, 0x00, 0x00, 0x00, 0x00, 0x00, 0x00, 0x00, 0x03, 0x83, 0x9D]

def l12 : List Byte := [0xBB, 0x00, 0x01, 0x03] ++ l12Rest

/-- Spec file 95, X2: the DSI of L1.2's payload under `FT_EX`. -/
def x2 : Vector Byte 16 := #v[0x00, 0x00, 0x04, 0x00, 0x00, 0x00, 0x7C, 0x00, 0x00, 0x00, 0x00, 0x00, 0x00, 0x00, 0x00, 0x0F]

theorem cfg_legal : cfg.Legal := by decide

/-- The fixture meets WF1 to WF8 (R118). -/
theorem fixture_legal : FieldTable.fixture.Legal 30 := by decide

/-! ## WellFormed refuses -/

theorem test_wf_unknown_a2u_not_stateset : (Instr.unknownA2u 0x03 [0x00]).wellFormed = false := by decide
theorem test_wf_unknown_a2u_not_k0 : (Instr.unknownA2u 0x04 [0x02, 0x01, 0x00, 0xBD]).wellFormed = false := by decide
theorem test_wf_unknown_u2a_not_stateset : (Instr.unknownU2a 0x03 [0x00]).wellFormed = false := by decide
theorem test_wf_rest_fits : (Instr.statesetA2u (List.replicate 252 0)).wellFormed = false := by
  simp only [Instr.wellFormed, restFits, List.length_replicate]; decide
theorem test_wf_rest_largest : (Instr.statesetU2a (List.replicate 251 0)).wellFormed = true := by
  simp only [Instr.wellFormed, restFits, List.length_replicate]; decide

/-! ## Every constructor's word, written out from spec/30_encoding.md R54 and R57 and spec/opcode_table.json -/

theorem test_decode_tquant : decodeCmd 0x00000001 = .ok .tquant := by decide
theorem test_decode_tenc : decodeCmd 0x00000002 = .ok .tenc := by decide
theorem test_decode_tdec : decodeCmd 0x00000003 = .ok .tdec := by decide
theorem test_decode_csum : decodeCmd 0x00000004 = .ok .csum := by decide
theorem test_decode_cver : decodeCmd 0x00000005 = .ok .cver := by decide
theorem test_decode_fpack : decodeCmd 0x00000806 = .ok (.fpack 8) := by decide
theorem test_decode_funpack : decodeCmd 0x00000D07 = .ok (.funpack 13) := by decide
theorem test_decode_encf : decodeCmd 0x00000008 = .ok .encf := by decide
theorem test_decode_cls : decodeCmd 0x00000009 = .ok .cls := by decide
theorem test_decode_dir : decodeCmd 0x0000000A = .ok .dir := by decide
theorem test_decode_decs : decodeCmd 0x0000000B = .ok .decs := by decide
theorem test_decode_decf : decodeCmd 0x0000000C = .ok .decf := by decide
theorem test_decode_fePush : decodeCmd 0xBD000010 = .ok (.fePush 0xBD) := by decide
theorem test_decode_feEof : decodeCmd 0x00000011 = .ok .feEof := by decide
theorem test_decode_feAbort : decodeCmd 0x00000012 = .ok .feAbort := by decide
theorem test_decode_feRd : decodeCmd 0x00160013 = .ok (.feRd 0x16) := by decide
theorem test_decode_feWr : decodeCmd 0x07000014 = .ok (.feWr 0x00 0x07) := by decide
theorem test_decode_keepaliveK0 : decodeFrameRow k0 = .ok .keepaliveK0 := by decide
theorem test_decode_statesetA2u : decodeFrameRow l12 = .ok (.statesetA2u l12Rest) := by decide
theorem test_decode_statesetU2a : decodeFrameRow [0xBB, 0x01, 0x00, 0x03, 0x55] = .ok (.statesetU2a [0x55]) := by decide
theorem test_decode_unknownA2u :
    decodeFrameRow [0xBB, 0x00, 0x01, 0xFF, 0x00, 0x45] = .ok (.unknownA2u 0xFF [0x00, 0x45]) := by decide
theorem test_decode_unknownU2a :
    decodeFrameRow [0xBB, 0x01, 0x00, 0x09, 0x00, 0xB3] = .ok (.unknownU2a 0x09 [0x00, 0xB3]) := by decide

/-- Spec file 95, section 8: the illegal words. -/
theorem test_decode_illegal_op :
    decodeCmd 0x00000000 = .error .reservedOp ∧ decodeCmd 0x0000000D = .error .reservedOp ∧
    decodeCmd 0x0000001F = .error .reservedOp := by decide
theorem test_decode_illegal_bits :
    decodeCmd 0x00000021 = .error .reservedBits ∧ decodeCmd 0x00001001 = .error .reservedBits ∧
    decodeCmd 0x00000101 = .error .unusedField ∧ decodeCmd 0x00010010 = .error .unusedField ∧
    decodeCmd 0x01000011 = .error .unusedField := by decide

theorem test_decode_no_frame_row :
    decodeFrameRow [0xAA, 0x00, 0x01, 0x04, 0x00] = .error .noFrameRow ∧
    decodeFrameRow [0xBB, 0x00, 0x00, 0x04, 0x00] = .error .noFrameRow ∧
    decodeFrameRow [0xBB, 0x00, 0x01] = .error .noFrameRow := by decide

/-! ## Vectors of spec file 95 -/

/-- T1, T2. -/
theorem test_tquant : respOf (exec .tquant (withTemp 0x1450)) = some (.ok (.tq 81)) ∧
    respOf (exec .tquant (withTemp 0xFFF0)) = some (.ok (.tq 0xFFFF)) := by decide
/-- T9, T10, T14. -/
theorem test_tenc : respOf (exec .tenc (withTemp 0x1450)) = some (.ok (.nib 0xB4)) ∧
    respOf (exec .tenc (withTemp 0x1F00)) = some (.ok (.nib 0x00)) ∧
    respOf (exec .tenc (withTemp 0x1F01)) = some (.err ⟨.outOfRange, 0⟩) := by decide
/-- T20, T25. -/
theorem test_tdec : respOf (exec .tdec (withNib 0x0C)) = some (.ok (.tq 127)) ∧
    respOf (exec .tdec (withNib 0xF3)) = some (.err ⟨.malformedField, 11⟩) := by decide
/-- S4, S16. -/
theorem test_csum : respOf (exec .csum (withFrame (k0.take 7))) = some (.ok (.byte 0xBD)) ∧
    respOf (exec .csum (st { Buses.quiet with len := 65 })) = some (.err ⟨.badOperand, 0⟩) := by decide
/-- S9, S13. -/
theorem test_cver : respOf (exec .cver (withFrame [])) = some (.err ⟨.truncated, 1⟩) ∧
    respOf (exec .cver (withFrame (k0.set 7 0xBC))) = some (.ok (.verdict false 0xBD)) := by decide
/-- allon, FID 8 and FID 9. -/
theorem test_fpack :
    respOf (exec (.fpack 8) (withState 0x0024FAFF 0x1F00)) = some (.ok (.payload (orAt (zeroBytes 30) 13 0x40))) ∧
    respOf (exec (.fpack 9) (withState 0x0024FAFF 0x1F00)) =
      some (.ok (.payload (orAt (orAt (zeroBytes 30) 13 0x01) 16 0x03))) := by decide
/-- Error cases of FPACK, and the last one, where only the packed field's code is checked. -/
theorem test_fpack_errors :
    respOf (exec (.fpack 7) (withState 0x00000500 0)) = some (.err ⟨.badOperand, 0⟩) ∧
    respOf (exec (.fpack 11) (withState 0 0x1F01)) = some (.err ⟨.outOfRange, 0⟩) ∧
    respOf (exec (.fpack 7) (withState 0x00024000 0)) = some (.ok (.payload (orAt (zeroBytes 30) 10 0x01))) := by decide
/-- U4, U5. -/
theorem test_funpack_wind :
    respOf (exec (.funpack 8) (withPayload [(15, 0x07)])) = some (.ok (.field ⟨false, 0, 7, false⟩)) ∧
    respOf (exec (.funpack 8) (withPayload [(13, 0x40), (15, 0x01)])) = some (.ok (.field ⟨true, 0, 9, false⟩)) := by decide
/-- U9, U10, U11, U12. -/
theorem test_funpack_vanes :
    respOf (exec (.funpack 9) (withPayload [(16, 0x09), (13, 0x01)])) = some (.ok (.field ⟨true, 0, 9, true⟩)) ∧
    respOf (exec (.funpack 9) (withPayload [(16, 0x02), (13, 0x01)])) = some (.ok (.field ⟨false, 2, 2, true⟩)) ∧
    respOf (exec (.funpack 10) (withPayload [(16, 0xF0)])) = some (.ok (.field ⟨false, 0, 15, false⟩)) ∧
    respOf (exec (.funpack 10) (withPayload [(16, 0xF0), (13, 0x02)])) = some (.ok (.field ⟨true, 0, 15, true⟩)) := by decide
/-- E3. -/
theorem test_encf : respOf (exec .encf (withState 0x0009A345 0x1740)) = some (.ok (.frame
    [0xBB, 0x00, 0x01, 0x03, 0x00, 0x00, 0x00, 0x00, 0x00, 0x00, 0x00, 0x00, 0x00, 0x00, 0x34, 0x08, 0x40, 0x02, 0x01, 0x04,
     0x2B, 0x00, 0x00, 0x00, 0x00, 0x00, 0x00, 0x00, 0x00, 0x00, 0x00, 0x00, 0x00, 0x00, 0xE9] 35)) := by decide
/-- E11. -/
theorem test_encf_priority : respOf (exec .encf (withState 0x00000500 0x0FFF)) = some (.err ⟨.badOperand, 0⟩) := by decide
/-- D1, D2, D10. -/
theorem test_cls : respOf (exec .cls (withFrame k0)) = some (.ok (.kind .recognizedConstant 0 (zeroBytes 30))) ∧
    respOf (exec .cls (withFrame l12)) = some (.ok (.kind .stateSet 0x03 (l12Rest.take 30))) ∧
    respOf (exec .cls (withFrame (l12 ++ [0x00]))) = some (.ok (.kind .malformed 4 (zeroBytes 30))) := by decide
/-- D8, D14, D15. -/
theorem test_dir : respOf (exec .dir (withFrame [0xBB, 0x00, 0x00])) = some (.err ⟨.malformed, 3⟩) ∧
    respOf (exec .dir (withFrame [0xAA, 0x00, 0x01])) = some (.ok (.dir .a2u)) ∧
    respOf (exec .dir (withFrame [0xBB, 0x01])) = some (.err ⟨.truncated, 1⟩) := by decide
/-- X2. -/
theorem test_decs : respOf (exec .decs (s0.withPayload (l12Rest.take 30))) = some (.ok (.state
    ⟨x2, (List.range 30).map fun i => decide (i ∈ [0, 3, 4, 5, 8, 28, 29])⟩)) := by decide
/-- D4, D7. -/
theorem test_decf : respOf (exec .decf (withFrame [0xBB, 0x00, 0x01, 0xFF, 0x00, 0x45])) = some (.ok (.decoded
      ⟨.unknownCommand, 0xFF, .a2u, true, false, Vector.replicate 16 0, List.replicate 30 false⟩)) ∧
    respOf (exec .decf (withFrame (k0.set 0 0xAA))) = some (.err ⟨.malformed, 2⟩) := by decide
/-- The result buses of a DECF that succeeded. -/
def decodedOf (o : Host.Outcome State Fault Refusal) : Option DecodedFrame :=
  match respOf o with
  | some (.ok (.decoded d)) => some d
  | _ => none

/-- D2, D11: the state-set rows. -/
theorem test_stateset_rows :
    (decodedOf (exec (.statesetA2u l12Rest) s0)).map (fun d => (d.dir, d.csv, d.hasState, decide (d.dsi = x2))) =
      some (.a2u, true, true, true) ∧
    (decodedOf (exec (.statesetU2a l12Rest) s0)).map (fun d => (d.kind, d.aux, d.dir, d.csv)) =
      some (.stateSet, 0x03, .u2a, true) := by decide
/-- D3, D13: the unknown rows. -/
theorem test_unknown_rows :
    (decodedOf (exec (.unknownA2u 0x04 [0x02, 0x01, 0x00, 0xBC]) s0)).map (fun d => (d.kind, d.aux, d.csv)) =
      some (.unknownCommand, 0x04, false) ∧
    (decodedOf (exec (.unknownU2a 0x09 [0x00, 0xB3]) s0)).map (fun d => (d.kind, d.aux, d.dir, d.csv)) =
      some (.unknownCommand, 0x09, .u2a, true) := by decide
/-- D1: the K0 row. -/
theorem test_keepalive_row :
    (decodedOf (exec .keepaliveK0 s0)).map (fun d => (d.kind, d.aux, d.dir, d.csv, d.hasState)) =
      some (.recognizedConstant, 0, .a2u, true, false) := by decide

/-- A front-end whose receive buffer holds these bytes. -/
def received (bytes : List Byte) : FrontEnd :=
  { FrontEnd.reset 64 with rxbuf := fitBytes 64 bytes, rxcnt := BitVec.ofNat 8 bytes.length }

/-- R135's example: after reset, FE_PUSH 0xBB makes RXCNT 1. -/
theorem test_fePush : (feOf (exec (.fePush 0xBB) s0)).map (fun fe => (fe.rxcnt, fe.received)) = some (1, [0xBB]) := by decide
/-- F6: the 65th push fails and sets RXOVF. -/
theorem test_fePush_full :
    respOf (exec (.fePush 0x00) (withFe (received (List.replicate 64 0xBB)))) = some (.err ⟨.feOverflow, 0⟩) ∧
    (feOf (exec (.fePush 0x00) (withFe (received (List.replicate 64 0xBB))))).map (fun fe => fe.statusByte) = some 0x10 := by
  decide
/-- F2: the registers after the keepalive. -/
theorem test_feEof_keepalive :
    respOf (exec .feEof (withFe (received k0))) = some (.ok (.byte 0x01)) ∧
    (feOf (exec .feEof (withFe (received k0)))).map (fun fe => (List.range 8).map fun a => fe.readReg (BitVec.ofNat 8 a)) =
      some ([0x06, 0x0A, 0x01, 0x04, 0x00, 0x01, 0x00, 0x08].map some) := by decide
/-- P3: L1.2 with a bad checksum is kept out of the SRF; with ACCEPT_BAD_CSUM it is X2. -/
theorem test_feEof_policy :
    (feOf (exec .feEof (withFe (received (l12.set 34 0x9C))))).map (fun fe => (fe.statusByte, fe.srfValid)) =
      some (0x08, false) ∧
    (feOf (exec .feEof (withFe { received (l12.set 34 0x9C) with ctrl := 0b111 }))).map
      (fun fe => (fe.statusByte, decide (fe.srf = x2))) = some (0x29, true) := by decide
/-- F8. -/
theorem test_feAbort : (feOf (exec .feAbort (withFe (received [0xBB])))).map (fun fe => fe.rxcnt) = some 0 := by decide
/-- R139's example, F9. -/
theorem test_feRd : respOf (exec (.feRd 0x00) s0) = some (.ok (.byte 0x06)) ∧
    (∀ a ∈ [0x08, 0x20, 0xFF], respOf (exec (.feRd a) s0) = some (.err ⟨.badOperand, 0⟩)) := by decide
/-- F10, F11. -/
theorem test_feWr : (feOf (exec (.feWr 0x00 0xFF) s0)).map (fun fe => fe.ctrlByte) = some 0x07 ∧
    respOf (exec (.feWr 0x10 0x00) s0) = some (.err ⟨.badOperand, 0⟩) := by decide
/-- Section 8: FE_RD without the front-end. -/
theorem test_fe_absent : respOf (exec (.feRd 0x00) noFe) = some (.err ⟨.illegalOp, 0⟩) := by decide
/-- The next state, where there is one. -/
def nextOf (o : Host.Outcome State Fault Refusal) : Option State :=
  match o with
  | .next t => some t
  | .fault _ => none
  | .refused _ => none

/-- R156: reset in mid-frame with a request in flight. -/
theorem test_reset_step :
    nextOf (step { withFe (received k0) with rst := true, cmd := some 0x00000011 }) = some s0 := by decide
/-- The first step after reset accepts a waiting request and the second answers it. -/
theorem test_two_steps :
    (nextOf (Sys2Proof.core.run 2 { s0 with waiting := [requestOf .tenc { Buses.quiet with temp := 0x1400 }] })).map
      (fun t => (t.resp, t.cmd)) = some (some (.ok (.nib 0xB0)), none) := by decide

/-! ## Witnesses: for each statement with hypotheses, states and operands that meet them -/

/-- A front-end that differs from the reset one in its receive buffer only is sound. -/
theorem inv_withFe (buf : List Byte) (cnt : Byte) (ovf : Bool)
    (h : buf.length = 64 ∧ cnt.toNat ≤ 64 ∧ (ovf = true → cnt.toNat = 64)) :
    (withFe { FrontEnd.reset 64 with rxbuf := buf, rxcnt := cnt, rxovf := ovf }).Inv :=
  ⟨cfg_legal, h.1, h.2.1, h.2.2, by simp [withFe, FrontEnd.reset], by simp [withFe, FrontEnd.reset, KindCode.goesWith],
    by simp [withFe, FrontEnd.reset], by simp [withFe, FrontEnd.reset], by simp [withFe, FrontEnd.reset],
    .inl ⟨rfl, rfl⟩⟩

/-- A command word in flight. -/
def asking (w : Word) (s : State) : State := { s with cmd := some w }

def full : FrontEnd := received (List.replicate 64 0xBB)

theorem inv_s0 : s0.Inv := inv_withFe (List.replicate 64 0) 0 false (by decide)
theorem inv_received_k0 : (withFe (received k0)).Inv := inv_withFe (fitBytes 64 k0) 8 false (by decide)
theorem inv_almost_full : (withFe { full with rxcnt := 63 }).Inv := inv_withFe (List.replicate 64 0xBB) 63 false (by decide)
theorem inv_full : (withFe full).Inv := inv_withFe (List.replicate 64 0xBB) 64 false (by decide)
theorem inv_overflowed : (withFe { full with rxovf := true }).Inv := inv_withFe (List.replicate 64 0xBB) 64 true (by decide)

theorem witness_StepRunsDecodedRequest :
    (asking 0x00000806 s0).rst = false ∧ (asking 0x00000806 s0).cmd = some 0x00000806 ∧
    decodeCmd 0x00000806 = .ok (.fpack 8) ∧ Instr.fpack 8 ≠ .decf := by decide

/-- At LEN = NMAX, and a frame no row matches. -/
theorem witness_StepRunsFrameRow :
    (asking 0x0C (withFrame k0)).rst = false ∧ (asking 0x0C (withFrame k0)).cmd = some 0x0000000C ∧
    (withFrame (k0 ++ List.replicate 56 0)).bus.len.toNat = cfg.nMax ∧
    (decodeFrameRow (fitBytes 64 (k0 ++ List.replicate 56 0))).isOk = true ∧
    (decodeFrameRow (fitBytes 8 k0)) = .ok .keepaliveK0 ∧
    (decodeFrameRow (fitBytes 3 [0xBB, 0x00, 0x01])).isOk = false := by decide

theorem witness_LoadedInstructionRuns : (Instr.statesetA2u l12Rest).wellFormed = true ∧ (Instr.feRd 0xFF).wellFormed = true := by
  decide

theorem witness_OneRequestAtATime :
    (s0.rst = false ∧ s0.cmd = none ∧ s0.waiting = []) ∧
    (∃ r rest, ({ s0 with waiting := feSend [0xBB] } : State).waiting = r :: rest) ∧
    (asking 0x11 s0).cmd = some 0x11 := ⟨by decide, ⟨_, _, rfl⟩, rfl⟩

/-- One word for each ground of R63, and legal words on either side of a boundary. -/
theorem witness_IllegalWordsAnswerIllegalOp :
    (asking 0x00000000 s0).rst = false ∧
    (∀ w ∈ [(0x00000000 : Word), 0x0000000D, 0x0000000F, 0x00000015, 0x0000001F, 0x00000021, 0x00008001, 0x00000101,
        0x00010010, 0x01000013], illegalWord true w) ∧
    (∀ w ∈ [(0x00000010 : Word), 0x00000014], illegalWord false w ∧ ¬ illegalWord true w) ∧
    (∀ w ∈ [(0x00000001 : Word), 0x0000000C, 0x00000F06, 0xFF000010, 0x00FF0013, 0xFFFF0014], ¬ illegalWord true w) := by
  refine ⟨rfl, ?_, ?_, ?_⟩ <;> intro w h <;> simp only [illegalWord] <;> fin_cases h <;> decide

theorem witness_DecodeOfEncode : (Instr.unknownU2a 0xFF []).wellFormed = true ∧ (Instr.fpack 15).wellFormed = true := by decide

theorem witness_EncodeOfDecode : decodeCmd 0x00FF0013 = .ok (.feRd 0xFF) ∧ l12.length ≤ 255 ∧
    decodeFrameRow l12 = .ok (.statesetA2u l12Rest) := by decide

theorem witness_ResetDropsRequestAndClearsFrontEnd :
    ({ asking 0x11 (withFe full) with rst := true } : State).rst = true ∧ (withFe full).cfg.hasFe = true := ⟨rfl, rfl⟩

/-- An FE_EOF that ends a frame. -/
theorem witness_StepKeepsInvariant :
    (asking 0x11 (withFe (received k0))).Inv ∧ ∃ t, step (asking 0x11 (withFe (received k0))) = .next t :=
  ⟨inv_received_k0, _, rfl⟩

theorem witness_StepKeepsConfiguration : ∃ t, step (asking 0x10 s0) = .next t := ⟨_, rfl⟩

theorem witness_LatencyAndAttachIrrelevant : ∃ t, step (asking 0x01 (withTemp 0x1450)) = .next t := ⟨_, rfl⟩

theorem witness_CoreIsStateless : isCoreOp .tquant = true ∧ (∃ t, exec .tquant (withTemp 0x1450) = .next t) ∧
    ({ withTemp 0x1450 with fe := full } : State).cfg = (withTemp 0x1450).cfg ∧
    ({ withTemp 0x1450 with fe := full } : State).bus = (withTemp 0x1450).bus := ⟨rfl, ⟨_, rfl⟩, rfl, rfl⟩

theorem witness_ErrorsChangeNothing :
    respOf (exec (.fePush 0) (withFe full)) = some (.err ⟨.feOverflow, 0⟩) ∧
    respOf (exec (.feRd 0x08) s0) = some (.err ⟨.badOperand, 0⟩) := by decide

/-- Buses that differ from a state's on a bus not read, on FRAME at index LEN and above, and on PAYLOAD at index P_LEN and
above; a LEN just above NMAX; a core operation and a front-end one. -/
theorem witness_UnreadBusesIgnored :
    (withTemp 0x1450).bus.temp = ({ (withTemp 0x1450).bus with nib := 1 } : Buses).temp ∧
    (∀ k, k < (withFrame k0).bus.len.toNat → byteAt (k0 ++ [0xFF]) k = byteAt (withFrame k0).bus.frame k) ∧
    s0.cfg.nMax < (st { Buses.quiet with len := 65 }).bus.len.toNat ∧
    (∀ k, k < 30 → byteAt (List.replicate 31 (0 : Byte) ++ [0xFF]) k = byteAt s0.bus.payload k) ∧
    isCoreOp (.feRd 0) = false := by decide

/-- The last valid and the first invalid code of mode, and a reserved bit. -/
theorem witness_StateWordValidity : stateValidFor 0x00000400 .mode = true ∧ stateValidFor 0x00000500 .mode = false ∧
    stateValidFor 0x00400000 .power = false ∧ fieldOf 7 = some .mode ∧ fieldOf 0 = some .power := by decide

theorem witness_ErrorsPerOperation : (withTemp 0).cfg.hasFe = true ∧
    respOf (exec .tenc (withTemp 0)) = some (.err ⟨.outOfRange, 0⟩) := by decide

theorem witness_TquantTruncatesToLowerQuarter : 2 ≤ (State.resetOf { cfg with fracBits := 2 }).cfg.fracBits := by decide

/-- 16.0 and 31.0 are accepted, the words next to them are not. -/
theorem witness_TencGivesNibbles : 2 ≤ cfg.fracBits ∧
    (16 ≤ celsius cfg 0x1000 ∧ celsius cfg 0x1000 ≤ 31) ∧ (16 ≤ celsius cfg 0x1F00 ∧ celsius cfg 0x1F00 ≤ 31) ∧
    ¬(16 ≤ celsius cfg 0x0FFF ∧ celsius cfg 0x0FFF ≤ 31) ∧ ¬(16 ≤ celsius cfg 0x1F01 ∧ celsius cfg 0x1F01 ≤ 31) := by
  have h1 : (0x1000 : BitVec 16).toInt = 4096 := by decide
  have h2 : (0x1F00 : BitVec 16).toInt = 7936 := by decide
  have h3 : (0x0FFF : BitVec 16).toInt = 4095 := by decide
  have h4 : (0x1F01 : BitVec 16).toInt = 7937 := by decide
  simp only [celsius, h1, h2, h3, h4, cfg]
  norm_num

theorem witness_TdecInvertsTheTable : (withNib 0x0C).bus.nib.toNat % 16 ∈ [0x0, 0x4, 0x8, 0xC] ∧
    (withNib 0x0D).bus.nib.toNat % 16 ∉ [0x0, 0x4, 0x8, 0xC] := by decide

/-- (a) at 16.0 and 31.0; (b) at 31.0 and 31.25; (c) on two temperatures of one degree. -/
theorem witness_TemperatureRoundTrips :
    (2 ≤ cfg.fracBits ∧ cfg.fracBits ≤ 10) ∧
    ((withTemp 0x1000).bus.temp = tempWord 8 64 ∧ (withTemp 0x1F00).bus.temp = tempWord 8 124) ∧
    (respOf (exec .tdec (withNib 0x00)) = some (.ok (.tq 124)) ∧ (withTemp 0x1F00).bus.temp = tempWord 8 124) ∧
    (respOf (exec .tdec (withNib 0x04)) = some (.ok (.tq 125)) ∧ (withTemp 0x1F40).bus.temp = tempWord 8 125) ∧
    (respOf (exec .tenc (withTemp 0x1400)) = some (.ok (.nib 0xB0)) ∧
      respOf (exec .tenc (withTemp 0x14C0)) = some (.ok (.nib 0xBC)) ∧
      (withTemp 0x1400).bus.temp.toInt ≤ (withTemp 0x14C0).bus.temp.toInt) := by decide

/-- LEN = NMAX and one more. -/
theorem witness_CsumFoldsXor : (st { Buses.quiet with len := 64 }).bus.len.toNat ≤ cfg.nMax ∧
    cfg.nMax < (st { Buses.quiet with len := 65 }).bus.len.toNat := by decide

/-- LEN = 0, 1, NMAX and one more. -/
theorem witness_CverComparesLastByte :
    (s0.bus.len.toNat ≤ cfg.nMax ∧ s0.bus.len.toNat = 0) ∧
    (∀ n ∈ [(1 : Byte), 64], (st { Buses.quiet with len := n }).bus.len.toNat ≤ cfg.nMax ∧
      1 ≤ (st { Buses.quiet with len := n }).bus.len.toNat) ∧
    cfg.nMax < (st { Buses.quiet with len := 65 }).bus.len.toNat := by decide

/-- The checksum byte itself (i = 7), and the first and last byte before it (i = 0, k = 6). -/
theorem witness_FlippedBitFailsToVerify :
    7 < (withFrame k0).bus.len.toNat ∧
    exec .cver (withFrame k0) = .next ((withFrame k0).respond (.ok (.verdict true 0xBD))) ∧
    0 < 6 ∧ 6 + 1 < (withFrame k0).bus.len.toNat := ⟨by decide, rfl, by decide, by decide⟩

/-- A mask with set and clear bits, a value that fits it, contiguous masks of width 1 and 8. -/
theorem witness_PextGathersPdepSpreads :
    ((0xC1 : Byte).getLsbD 7 = true ∧ (0xC1 : Byte).getLsbD 1 = false) ∧
    (List.range 8).countP (fun j => (0xC1 : Byte).getLsbD j) = 3 ∧ (7 : Byte).toNat < 2 ^ 3 ∧
    (0x80 : Byte) = BitVec.ofNat 8 ((2 ^ 1 - 1) * 2 ^ 7) ∧ (0xFF : Byte) = BitVec.ofNat 8 ((2 ^ 8 - 1) * 2 ^ 0) := by decide

/-- FID 12; a field whose code is the first invalid one; the temperature out of range and in range; a bool. -/
theorem witness_FpackPacksOneField :
    12 ≤ (12 : BitVec 4).toNat ∧ (fieldOf 7 = some .mode ∧ stateValidFor 0x00000500 .mode = false) ∧
    (fieldOf 11 = some .targetTemperature ∧ stateValidFor 0 .targetTemperature = true ∧ tempInRange 8 0x1F01 = false) ∧
    tempInRange 8 0x1F00 = true ∧ (fieldOf 0 = some .power ∧ stateValidFor 0 .power = true) ∧ 2 ≤ cfg.fracBits := by decide

theorem witness_FunpackReadsBools : cfg.Legal ∧ (boolEntries cfg.ft)[5]? = some ⟨10, 0x80⟩ ∧ 12 ≤ (12 : BitVec 4).toNat :=
  ⟨cfg_legal, by decide, by decide⟩

/-- A variant's code, an unassigned one, and one that is neither. -/
theorem witness_FunpackLooksUpEnums : cfg.Legal ∧ cfg.ft.windSpeed.enc[7] = 8 ∧
    ((7 : BitVec 5) ∉ cfg.ft.windSpeed.enc.toList ∧ (7 : BitVec 5) ∈ cfg.ft.windSpeed.unassigned) ∧
    ((9 : BitVec 5) ∉ cfg.ft.windSpeed.enc.toList ∧ (9 : BitVec 5) ∉ cfg.ft.windSpeed.unassigned) :=
  ⟨cfg_legal, by decide, by decide, by decide⟩

/-- A variant's pair, an unassigned code with Auto's flow bit, and the same code without it. -/
theorem witness_FunpackLooksUpVanes : cfg.Legal ∧
    (cfg.ft.horizontalVane.enc[4] = 4 ∧ cfg.ft.horizontalVane.flow[4] = true) ∧
    ((∀ v : Fin 10, ¬(cfg.ft.horizontalVane.enc[v] = 15 ∧ cfg.ft.horizontalVane.flow[v] = false)) ∧
      (15 : Byte) ∈ cfg.ft.horizontalVane.unassigned ∧ false = cfg.ft.horizontalVane.autoFlow) ∧
    ((∀ v : Fin 10, ¬(cfg.ft.horizontalVane.enc[v] = 15 ∧ cfg.ft.horizontalVane.flow[v] = true)) ∧
      ¬((15 : Byte) ∈ cfg.ft.horizontalVane.unassigned ∧ true = cfg.ft.horizontalVane.autoFlow)) :=
  ⟨cfg_legal, by decide, by decide, by decide⟩

theorem witness_FunpackReadsTemperature : s0.cfg.Legal := cfg_legal

/-- An invalid field, a temperature just out of range, and the largest valid state at 31.0. -/
theorem witness_EncfBuildsTheFrame : 2 ≤ cfg.fracBits ∧ (∃ f, stateValidFor 0x00000500 f = false) ∧
    (∀ f, stateValidFor 0x00263CFF f = true) ∧ tempInRange 8 0x0FFF = false ∧ tempInRange 8 0x1F00 = true :=
  ⟨by decide, ⟨.mode, by decide⟩, by intro f; cases f <;> decide, by decide, by decide⟩

/-- The frame that ENCF answers to Heat, 20.0 °C, as the frame operand of the later requests. -/
def heat : List Byte :=
  [0xBB, 0x00, 0x01, 0x03] ++ List.replicate 10 0 ++ [0x01, 0x0B] ++ List.replicate 18 0 ++ [0xB3]

theorem witness_EncodedFrameVerifiesAndClassifies : cfg.Legal ∧ (withFrame heat).cfg = cfg ∧
    respOf (exec .encf (withState 0 0x1400)) = some (.ok (.frame heat 35)) ∧
    (withFrame heat).bus.frame = heat ∧ (withFrame heat).bus.len = 35 :=
  ⟨cfg_legal, rfl, by decide, rfl, rfl⟩

/-- Heat at 20.0 °C, everything else at port code 0. -/
def heatState : ClimateState := ⟨false, false, false, false, false, false, .off, .heat, .auto, .auto, .auto, 80⟩

theorem witness_DecsUndoesEncf : cfg.Legal ∧ (withState 0 0x1400).bus.state = stateWord heatState ∧
    tempInRange 8 (withState 0 0x1400).bus.temp = true ∧
    quantizeTemp 8 (withState 0 0x1400).bus.temp = heatState.targetQuarters := ⟨cfg_legal, by decide, by decide, by decide⟩

/-- One frame for each clause: LEN above NMAX, catalog entries, LEN 4, and at LEN 5 a bad marker, a bad direction pair, a short
state-set frame and an unknown command; state-set frames of N_SS - 1, N_SS and N_SS + 1 bytes. -/
theorem witness_ClsClassifiesFrames : cfg.Legal ∧ cfg.nMax < (st { Buses.quiet with len := 65 }).bus.len.toNat ∧
    (cfg.kcat[1]? = some (fitBytes 6 [0xBB, 0x01, 0x00, 0x0A, 0x55, 0xE5]) ∧ cfg.kcat[0]? = some k0) ∧
    (∀ f ∈ [[0xBB, 0x00, 0x01, 0x04], [0xAA, 0x00, 0x01, 0x04, 0x00], [0xBB, 0x00, 0x00, 0x04, 0x00],
      [0xBB, 0x00, 0x01, 0x03, 0x00], [0xBB, 0x01, 0x00, 0x04, 0x00], l12.take 34, l12, l12 ++ [0x00]],
      f ∉ cfg.kcat ∧ f.length ≤ cfg.nMax) ∧
    (l12.take 34).length + 1 = cfg.nSs ∧ l12.length = cfg.nSs ∧ isDirectionPair (byteAt l12 1) (byteAt l12 2) ∧
    ¬ isDirectionPair 0x00 0x00 := ⟨cfg_legal, by decide, by decide, by decide, by decide, by decide, by decide, by decide⟩

theorem witness_DirComparesTheHeaderPair :
    cfg.nMax < (st { Buses.quiet with len := 65 }).bus.len.toNat ∧
    (withFrame [0xBB, 0x01]).bus.len.toNat < 3 ∧ 3 ≤ (withFrame [0xAA, 0x00, 0x01]).bus.len.toNat ∧
    ¬ isDirectionPair (byteAt [0xBB, 0x00, 0x00] 1) (byteAt [0xBB, 0x00, 0x00] 2) := by decide

/-- A malformed frame, a state-set frame and another one. -/
theorem witness_DecfAgreesWithItsParts : cfg.Legal ∧
    respOf (exec .cls (withFrame [0xBB])) = some (.ok (.kind .malformed 1 (zeroBytes 30))) ∧
    respOf (exec .cls (withFrame l12)) = some (.ok (.kind .stateSet 0x03 (l12Rest.take 30))) ∧
    respOf (exec .cls (withFrame k0)) = some (.ok (.kind .recognizedConstant 0 (zeroBytes 30))) :=
  ⟨cfg_legal, by decide, by decide, by decide⟩

theorem witness_ChecksumOnlyAffectsVerdict : cfg.Legal ∧
    (decodedOf (exec .decf (withFrame l12))).map (fun d => d.kind) = some .stateSet := ⟨cfg_legal, by decide⟩

theorem witness_CatalogEntriesAreRecognized : s0.cfg.Legal ∧ s0.cfg.kcat[0]? = some k0 ∧
    s0.cfg.kcat[1]? = some [0xBB, 0x01, 0x00, 0x0A, 0x55, 0xE5] := ⟨cfg_legal, by decide, by decide⟩

theorem witness_KeepaliveK0IsRecognized : s0.cfg.Legal := cfg_legal

/-- P_LEN + 1 bytes after the header, one fewer, one more, as many as NMAX admits, and one more than that. -/
theorem witness_StatesetFramesDecode : s0.cfg.Legal ∧ l12Rest.length = s0.cfg.pLen + 1 ∧
    (l12Rest.take 30).length < s0.cfg.pLen + 1 ∧ s0.cfg.pLen + 1 < (l12Rest ++ [0]).length ∧
    (List.replicate 60 (0 : Byte)).length + 4 ≤ s0.cfg.nMax ∧ s0.cfg.nMax < (List.replicate 61 (0 : Byte)).length + 4 :=
  ⟨cfg_legal, by decide, by decide, by decide, by decide, by decide⟩

/-- A command next to 0x03, one byte after the header and as many as NMAX admits, a keepalive command that is no catalog
entry. -/
theorem witness_UnknownFramesDecode : s0.cfg.Legal ∧ (0x02 : Byte) ≠ 0x03 ∧
    ([0xBB, 0x00, 0x01, 0x02] ++ [0x00] ∉ s0.cfg.kcat ∧ [0xBB, 0x01, 0x00, 0x0A] ++ [0x00] ∉ s0.cfg.kcat) ∧
    1 ≤ [(0 : Byte)].length ∧ (List.replicate 60 (0 : Byte)).length + 4 ≤ s0.cfg.nMax ∧
    s0.cfg.nMax < (List.replicate 61 (0 : Byte)).length + 4 :=
  ⟨cfg_legal, by decide, by decide, by decide, by decide, by decide⟩

/-- A buffer with one free byte, and a full one. -/
theorem witness_FePushAppendsOrOverflows :
    (withFe { full with rxcnt := 63 }).cfg.hasFe = true ∧ (withFe { full with rxcnt := 63 }).Inv ∧
    (withFe { full with rxcnt := 63 }).fe.rxcnt.toNat < cfg.nMax ∧
    (withFe full).Inv ∧ (withFe full).fe.rxcnt.toNat = cfg.nMax :=
  ⟨rfl, inv_almost_full, by decide, inv_full, by decide⟩

theorem witness_FeAbortDiscardsTheFrame : (withFe full).cfg.hasFe = true := rfl

theorem witness_FeRdReadsTheRegisterMap : s0.cfg.hasFe = true ∧ (0x1F : Byte).toNat = 0x10 + (15 : Fin 16) ∧
    (0x08 : Byte).toNat ≤ 0x0F ∧ 0x20 ≤ (0x20 : Byte).toNat := by decide

theorem witness_FeWrWritesControlOnly : s0.cfg.hasFe = true ∧ (0x01 : Byte) ≠ 0x00 := by decide

/-- An overflowed frame, one that DECF answers with Ok, and the empty one, which it answers with Err. -/
theorem witness_FeEofEndsTheFrame :
    ((withFe { full with rxovf := true }).Inv ∧ (withFe { full with rxovf := true }).fe.rxovf = true) ∧
    (withFe (received k0)).cfg.hasFe = true ∧ (withFe (received k0)).Inv ∧ (withFe (received k0)).fe.rxovf = false ∧
    ((decodedOf (exec .decf ((withFe (received k0)).withFrame (received k0).received))).isSome = true) ∧
    s0.Inv ∧ respOf (exec .decf (s0.withFrame s0.fe.received)) = some (.err ⟨.truncated, 1⟩) :=
  ⟨⟨inv_overflowed, rfl⟩, rfl, inv_received_k0, rfl, by decide, inv_s0, by decide⟩

/-- The K0 frame waiting to be sent, right after reset. -/
theorem witness_FeSendDecodesLikeDecf :
    ({ s0 with waiting := feSend k0 } : State).Inv ∧ s0.cfg.hasFe = true ∧ s0.rst = false ∧ s0.cmd = none ∧
    s0.fe.rxcnt = 0 ∧ s0.fe.rxovf = false ∧ k0.length ≤ s0.cfg.nMax ∧
    (decodedOf (exec .decf (s0.withFrame k0))).isSome = true ∧
    respOf (exec .decf (s0.withFrame [])) = some (.err ⟨.truncated, 1⟩) :=
  ⟨inv_s0, rfl, rfl, rfl, rfl, rfl, by decide, by decide, by decide⟩

theorem witness_FrontEndWriters : (∃ t, exec .tquant s0 = .next t) ∧ (∃ t, exec .feEof s0 = .next t) ∧
    s0.cfg.hasFe = true := ⟨⟨_, rfl⟩, ⟨_, rfl⟩, rfl⟩

theorem witness_FrontEndAbsentIsIllegal : isCoreOp .feEof = false ∧ noFe.cfg.hasFe = false := by decide

end Sys2Proof.Tests
end

section
/-! PROOFS. What R9's `pext` and `pdep` do to each bit (ob. O28). The model recurses over the bits of the mask as a list; the
lemmas below turn that recursion into one equation per bit, with the number of set mask bits below a position as the index. -/

namespace Sys2Proof

/-! ## A byte and its list of bits -/

@[simp] theorem Byte.bits_length (b : Byte) : b.bits.length = 8 := by simp [Byte.bits]

theorem Byte.getD_bits (b : Byte) (i : Nat) : b.bits.getD i false = b.getLsbD i := by
  by_cases h : i < 8
  · simp [Byte.bits, h]
  · simp [Byte.bits, h, BitVec.getLsbD_of_ge b i (by omega)]

theorem testBit_natOfBits (bs : List Bool) (i : Nat) : (natOfBits bs).testBit i = bs.getD i false := by
  induction bs generalizing i with
  | nil => simp [natOfBits]
  | cons b bs ih =>
    cases i with
    | zero => cases b <;> simp [natOfBits]
    | succ i =>
      have hdiv : (b.toNat + 2 * natOfBits bs) / 2 = natOfBits bs := by cases b <;> simp [Nat.add_mul_div_left]
      rw [natOfBits, Nat.testBit_succ, hdiv, ih, List.getD_cons_succ]

theorem getLsbD_ofBits {bs : List Bool} (h : bs.length ≤ 8) (i : Nat) : (Byte.ofBits bs).getLsbD i = bs.getD i false := by
  rw [Byte.ofBits, BitVec.getLsbD_ofNat, testBit_natOfBits]
  by_cases hi : i < 8
  · simp [hi]
  · simp [hi, List.getElem?_eq_none (show bs.length ≤ i by omega)]

/-! ## Depositing and extracting bit lists -/

theorem extractBits_length_le (ms vs : List Bool) : (extractBits ms vs).length ≤ ms.count true := by
  induction ms, vs using extractBits.induct with
  | case1 ms v vs ih => simpa [extractBits] using ih
  | case2 ms v vs ih => simpa [extractBits] using ih
  | case3 ms vs h1 h2 => simp [extractBits]

/-- A set mask position takes the next bit, or 0 where there is none; a clear one takes 0 and leaves the bits. -/
theorem depositBits_cons (m : Bool) (ms xs : List Bool) :
    depositBits (m :: ms) xs = (m && xs.headD false) :: depositBits ms (if m then xs.tail else xs) := by
  cases m with
  | false => rfl
  | true => cases xs <;> rfl

theorem depositBits_length (ms xs : List Bool) : (depositBits ms xs).length = ms.length := by
  induction ms generalizing xs with
  | nil => rfl
  | cons m ms ih => rw [depositBits_cons, List.length_cons, ih, List.length_cons]

/-- A set mask position deposits the bit whose index is the number of set positions below it. -/
theorem getD_depositBits (ms xs : List Bool) (i : Nat) :
    (depositBits ms xs).getD i false = (ms.getD i false && xs.getD ((ms.take i).count true) false) := by
  induction ms generalizing xs i with
  | nil => simp [depositBits]
  | cons m ms ih =>
    rw [depositBits_cons]
    cases i with
    | zero => cases xs <;> simp
    | succ i => rw [List.getD_cons_succ, ih]; cases m <;> simp

/-- A set mask position is extracted to the index that counts the set positions below it. -/
theorem getD_extractBits {ms : List Bool} {i : Nat} (vs : List Bool) (h : ms.getD i false = true) :
    (extractBits ms vs).getD ((ms.take i).count true) false = vs.getD i false := by
  induction ms generalizing vs i with
  | nil => simp at h
  | cons m ms ih =>
    cases vs with
    | nil => cases m <;> simp [extractBits]
    | cons v vs =>
      cases i with
      | zero => cases m <;> simp_all [extractBits]
      | succ i => cases m <;> simpa [extractBits] using ih vs h

/-! ## The rank of a position under a mask -/

/-- R9: how many positions below `i` the mask sets, that is the `k` for which a set position `i` is the `k`-th lowest. -/
def maskRank (m : Byte) (i : Nat) : Nat := (List.range i).countP fun j => m.getLsbD j

@[simp] theorem maskRank_zero (m : Byte) : maskRank m 0 = 0 := rfl

@[simp] theorem maskRank_succ (m : Byte) (i : Nat) : maskRank m (i + 1) = maskRank m i + (m.getLsbD i).toNat := by
  cases h : m.getLsbD i <;> simp [maskRank, List.range_succ, h]

theorem count_take_bits (m : Byte) {i : Nat} (h : i ≤ 8) : (m.bits.take i).count true = maskRank m i := by
  simp [Byte.bits, maskRank, ← List.map_take, List.take_range, h, List.count, List.countP_map, Function.comp_def]

/-- R8: the rank of the end of the byte is `popcount`. -/
theorem maskRank_eight (m : Byte) : maskRank m 8 = popcount m := by
  rw [← count_take_bits m le_rfl, popcount, List.take_of_length_le (by simp)]

/-- Every index below the number of set positions is the rank of one of them. -/
theorem exists_maskRank_eq {m : Byte} {n k : Nat} (h : k < maskRank m n) :
    ∃ i < n, m.getLsbD i = true ∧ maskRank m i = k := by
  induction n with
  | zero => simp at h
  | succ n ih =>
    by_cases hk : k < maskRank m n
    · obtain ⟨i, hi, hm, hr⟩ := ih hk
      exact ⟨i, by omega, hm, hr⟩
    · rw [maskRank_succ] at h
      cases hm : m.getLsbD n
      · simp [hm] at h; omega
      · simp [hm] at h; exact ⟨n, by omega, hm, by omega⟩

/-! ## Each bit of `pdep` and `pext` -/

/-- R9: a set mask position takes the bit of its rank, every other position is 0. -/
theorem getLsbD_pdep (x m : Byte) (i : Nat) : (pdep x m).getLsbD i = (m.getLsbD i && x.getLsbD (maskRank m i)) := by
  rw [pdep, getLsbD_ofBits (by simp [depositBits_length]), getD_depositBits, Byte.getD_bits, Byte.getD_bits]
  by_cases hi : i ≤ 8
  · rw [count_take_bits m hi]
  · simp [BitVec.getLsbD_of_ge m i (by omega)]

theorem getLsbD_pext (v m : Byte) (k : Nat) : (pext v m).getLsbD k = (extractBits m.bits v.bits).getD k false := by
  have hcount : m.bits.count true ≤ 8 := by simpa using m.bits.count_le_length
  exact getLsbD_ofBits ((extractBits_length_le _ _).trans hcount) k

/-- R9: the bit of `v` at a set mask position lands at its rank. -/
theorem getLsbD_pext_maskRank (v : Byte) {m : Byte} {i : Nat} (h : m.getLsbD i = true) :
    (pext v m).getLsbD (maskRank m i) = v.getLsbD i := by
  have hi : i < 8 := BitVec.lt_of_getLsbD h
  rw [getLsbD_pext, ← count_take_bits m hi.le, getD_extractBits _ ((Byte.getD_bits m i).trans h), Byte.getD_bits]

/-- R9: the result of `pext` has popcount(m) bits. -/
theorem getLsbD_pext_of_le (v : Byte) {m : Byte} {k : Nat} (h : maskRank m 8 ≤ k) : (pext v m).getLsbD k = false := by
  rw [maskRank_eight, popcount] at h
  rw [getLsbD_pext]
  exact List.getD_eq_default _ _ ((extractBits_length_le _ _).trans h)

/-- To know a byte that `pext` gave, it is enough to know its bits at the ranks of the set positions. -/
theorem pext_eq_of_getLsbD {v m y : Byte} (hset : ∀ i, m.getLsbD i = true → v.getLsbD i = y.getLsbD (maskRank m i))
    (hhigh : ∀ k, maskRank m 8 ≤ k → y.getLsbD k = false) : pext v m = y := by
  apply BitVec.eq_of_getLsbD_eq
  intro k _
  by_cases hk : k < maskRank m 8
  · obtain ⟨i, -, hm, rfl⟩ := exists_maskRank_eq hk
    rw [getLsbD_pext_maskRank v hm, hset i hm]
  · rw [getLsbD_pext_of_le v (by omega), hhigh k (by omega)]

/-- R9: `pdep` is the inverse of `pext` on the values that fit the mask. -/
theorem pext_pdep {x m : Byte} (h : x.toNat < 2 ^ maskRank m 8) : pext (pdep x m) m = x := by
  apply pext_eq_of_getLsbD
  · intro i hm
    rw [getLsbD_pdep, hm, Bool.true_and]
  · intro k hk
    exact Nat.testBit_lt_two_pow (h.trans_le (Nat.pow_le_pow_right (by omega) hk))

/-! ## Contiguous masks -/

/-- The mask of `w` set bits whose lowest is bit `j`. -/
def contiguousMask (j w : Nat) : Byte := BitVec.ofNat 8 ((2 ^ w - 1) * 2 ^ j)

theorem getLsbD_contiguousMask {j w : Nat} (h : j + w ≤ 8) (i : Nat) :
    (contiguousMask j w).getLsbD i = decide (j ≤ i ∧ i < j + w) := by
  rw [contiguousMask, BitVec.getLsbD_ofNat, Nat.testBit_mul_two_pow, Nat.testBit_two_pow_sub_one]
  by_cases hj : j ≤ i <;> by_cases hw : i < j + w <;> simp [hj, hw] <;> omega

theorem maskRank_contiguousMask {j w : Nat} (h : j + w ≤ 8) (i : Nat) :
    maskRank (contiguousMask j w) i = min (i - j) w := by
  induction i with
  | zero => simp
  | succ i ih =>
    rw [maskRank_succ, ih, getLsbD_contiguousMask h]
    by_cases hj : j ≤ i ∧ i < j + w <;> simp [hj] <;> omega

theorem pdep_contiguousMask (x : Byte) {j w : Nat} (h : j + w ≤ 8) :
    pdep x (contiguousMask j w) = (x <<< j) &&& contiguousMask j w := by
  apply BitVec.eq_of_getLsbD_eq
  intro i hi
  rw [getLsbD_pdep, BitVec.getLsbD_and, BitVec.getLsbD_shiftLeft, maskRank_contiguousMask h, getLsbD_contiguousMask h]
  by_cases hm : j ≤ i ∧ i < j + w
  · have hr : min (i - j) w = i - j := by omega
    simp [hm, hr, hi]
  · simp [hm]

theorem pext_contiguousMask (v : Byte) {j w : Nat} (h : j + w ≤ 8) :
    pext v (contiguousMask j w) = (v &&& contiguousMask j w) >>> j := by
  apply pext_eq_of_getLsbD
  · intro i hm
    have hi : j ≤ i ∧ i < j + w := by simpa [getLsbD_contiguousMask h] using hm
    have hr : j + min (i - j) w = i := by omega
    rw [BitVec.getLsbD_ushiftRight, BitVec.getLsbD_and, maskRank_contiguousMask h, hr, hm, Bool.and_true]
  · intro k hk
    rw [maskRank_contiguousMask h] at hk
    have hout : ¬ (j ≤ j + k ∧ j + k < j + w) := by omega
    rw [BitVec.getLsbD_ushiftRight, BitVec.getLsbD_and, getLsbD_contiguousMask h, decide_eq_false hout, Bool.and_false]

/-- Settles O28: each clause is the equation of one bit, and the last two the inverse and the contiguous case. -/
theorem pextGathersPdepSpreads : Obligations.PextGathersPdepSpreads := by
  intro v m rank
  refine ⟨fun i _ hm => ⟨getLsbD_pext_maskRank v hm, ?setBit⟩, fun i _ hm => ?clearBit, fun k hk => getLsbD_pext_of_le v hk,
    pext_pdep, ?contiguous⟩
  case setBit => rw [getLsbD_pdep, hm, Bool.true_and]; rfl
  case clearBit => rw [getLsbD_pdep, hm, Bool.false_and]
  case contiguous =>
    rintro j w - hjw rfl
    exact ⟨pdep_contiguousMask v hjw, pext_contiguousMask v hjw⟩

end Sys2Proof
end

section
/-! PROOFS. The state after reset is sound, whatever legal values the OPEN parameters of R6 have (ob. O12). -/

namespace Sys2Proof.Machine

open Sys2Proof

/-! ## The OPEN parameters -/

/-- R6, R95 to R102: the fixture that stands in for an illegal table is legal itself. -/
theorem someFieldTable_legal : Config.someFieldTable.Legal 30 := by
  unfold Config.someFieldTable
  split
  case isTrue h => exact h
  case isFalse => decide

/-- R6, R123: entry 0 alone is a legal catalog. -/
theorem someCatalog_legal : legalCatalog 64 (keepaliveK0Bytes :: Config.someCatalog) := by
  unfold Config.someCatalog
  split
  case isTrue h => exact h
  case isFalse => decide

/-- R6: the defaults and the arbitrary legal parameters make a legal configuration. -/
theorem reference_legal : Config.reference.Legal :=
  ⟨by decide, by decide, by decide, by decide, someCatalog_legal, someFieldTable_legal⟩

/-! ## The front-end registers -/

/-- R37: the reset values meet the invariant under every configuration. -/
theorem FrontEnd.inv_reset (c : Config) : (FrontEnd.reset c.nMax).Inv c where
  rxbuf_length := List.length_replicate
  rxcnt_le := Nat.zero_le _
  ovf_full := nofun
  dir_zero _ := rfl
  kind_status := rfl
  id_zero _ _ := rfl
  id_reason := nofun
  written := nofun
  srf_image := .inl ⟨rfl, rfl⟩

/-- R156: a block built legally is sound right after reset. -/
theorem State.inv_resetOf {c : Config} (h : c.Legal) : (State.resetOf c).Inv := ⟨h, FrontEnd.inv_reset c⟩

/-- Settles O12: the reference configuration is legal and reset makes the front-end registers sound under it. -/
theorem resetStateIsSound : Obligations.ResetStateIsSound := State.inv_resetOf reference_legal

end Sys2Proof.Machine
end

section
/-! PROOFS. Everything an operation can do to the ports and the front-end registers, said once, and what follows: a response
touches the ports only (ob. O1), a request is answered exactly once (ob. O5), and a core operation keeps no state (ob. O16). -/

namespace Sys2Proof.Machine

open Sys2Proof

/-! ## Core operations -/

/-- R18: a core operation answers from the configuration and the operand buses, so two states that agree on these get the
same answer. -/
theorem exec_eq_answer_of_isCoreOp {i : Instr} {s s' : State} (hi : isCoreOp i = true) (hcfg : s'.cfg = s.cfg)
    (hbus : s'.bus = s.bus) : ∃ a, exec i s = s.answer a ∧ exec i s' = s'.answer a := by
  obtain ⟨c, _, _, _, b, _, _⟩ := s
  obtain ⟨_, _, _, _, _, _, _⟩ := s'
  cases hcfg
  cases hbus
  cases i with
  | tquant | decs => exact ⟨.ok _, rfl, rfl⟩
  | tenc | tdec | csum | cver | fpack | funpack | encf | cls | dir | decf => exact ⟨_, rfl, rfl⟩
  | keepaliveK0 | statesetA2u | statesetU2a | unknownA2u | unknownU2a => exact ⟨_, rfl, rfl⟩
  | fePush | feEof | feAbort | feRd | feWr => cases hi

/-! ## Every operation -/

/-- What one operation can make of the front-end registers: nothing, or what R135 to R138 and R140 name. -/
inductive FrontEnd.Update (c : Config) (fe : FrontEnd) : FrontEnd → Prop
  | keep : Update c fe fe
  | push (d : Byte) (room : fe.rxcnt.toNat < c.nMax) : Update c fe (fe.pushByte d)
  | overflow (full : ¬ fe.rxcnt.toNat < c.nMax) : Update c fe fe.overflow
  | endFrame : Update c fe (fe.endFrame c)
  | clearRx : Update c fe fe.clearRx
  | setCtrl (d : Byte) : Update c fe (fe.setCtrl d)

/-- The outcome `o` of an operation in state `s` is a next state: one response, and one update of the front-end. -/
def State.Answers (s : State) (o : Host.Outcome State Fault Refusal) : Prop :=
  ∃ fe r, s.fe.Update s.cfg fe ∧ o = .next ((s.setFe fe).respond r)

/-- R147: an operation that only answers, with a result or an error, keeps the front-end. -/
theorem State.answers_answer (s : State) (a : Except Error Result) : s.Answers (s.answer a) :=
  ⟨s.fe, responseOf a, .keep, rfl⟩

theorem State.answers_ifFrontEnd {s : State} {k : Host.Outcome State Fault Refusal} (h : s.Answers k) :
    s.Answers (s.ifFrontEnd k) := by
  cases hfe : s.cfg.hasFe with
  | true => simpa [hfe] using h
  | false => simpa [hfe] using s.answers_answer (.error illegalOp)

theorem execFePush_answers (d : Byte) (s : State) : s.Answers (execFePush d s) := by
  refine State.answers_ifFrontEnd ?_
  split
  case isTrue room => exact ⟨_, _, .push d room, rfl⟩
  case isFalse full => exact ⟨_, _, .overflow full, rfl⟩

theorem execFeWr_answers (a d : Byte) (s : State) : s.Answers (execFeWr a d s) := by
  refine State.answers_ifFrontEnd ?_
  split
  case isTrue => exact ⟨_, _, .setCtrl d, rfl⟩
  case isFalse => exact s.answers_answer (.error badOperand)

/-- R56, R147: every instruction ends in a next state with one response and at most one update of the front-end. -/
theorem exec_answers (i : Instr) (s : State) : s.Answers (exec i s) := by
  cases hi : isCoreOp i with
  | true =>
    obtain ⟨a, ha, -⟩ := exec_eq_answer_of_isCoreOp (s := s) hi rfl rfl
    exact ha ▸ s.answers_answer a
  | false =>
    cases i with
    | fePush d => exact execFePush_answers d s
    | feEof => exact State.answers_ifFrontEnd ⟨_, _, .endFrame, rfl⟩
    | feAbort => exact State.answers_ifFrontEnd ⟨_, _, .clearRx, rfl⟩
    | feRd a => exact State.answers_ifFrontEnd (s.answers_answer _)
    | feWr a d => exact execFeWr_answers a d s
    | _ => cases hi

/-- R24, R63: with the reset input low, a step at a request in flight answers it, whether its command word is legal or not. -/
theorem step_answers {s : State} {w : Word} (hrst : s.rst = false) (hcmd : s.cmd = some w) : s.Answers (step s) := by
  simp only [step, hrst, hcmd, Bool.false_eq_true, if_false]
  split
  case h_1 i _ => exact exec_answers i s
  case h_2 => exact s.answers_answer (.error illegalOp)

/-! ## The obligations -/

/-- Settles O1: the quiet buses of log entry 6 are the zero buses. -/
theorem respondTouchesPortsOnly : Obligations.RespondTouchesPortsOnly := fun _ _ => rfl

/-- Settles O5: acceptance and idling by the step's own branches, the answer by `step_answers`. -/
theorem oneRequestAtATime : Obligations.OneRequestAtATime := by
  intro s hrst
  refine ⟨fun r rest hcmd hwait => ?_, fun hcmd hwait => ?_, fun w hcmd => ?_⟩
  · simp [step, hrst, hcmd, hwait, State.accept]
  · simp [step, hrst, hcmd, hwait, State.idle]
  · obtain ⟨fe, r, -, hstep⟩ := step_answers hrst hcmd
    exact ⟨_, hstep, rfl, rfl, rfl⟩

/-- Settles O16: both states give the one answer that their common configuration and buses determine. -/
theorem coreIsStateless : Obligations.CoreIsStateless := by
  intro i s t hi hexec
  constructor
  · obtain ⟨a, ha, -⟩ := exec_eq_answer_of_isCoreOp (s := s) hi rfl rfl
    obtain rfl := State.answer_next (ha.symm.trans hexec)
    exact ⟨rfl, rfl, rfl, rfl⟩
  · intro s' t' hcfg hbus hexec'
    obtain ⟨a, ha, ha'⟩ := exec_eq_answer_of_isCoreOp hi hcfg hbus
    rw [State.answer_next (ha.symm.trans hexec), State.answer_next (ha'.symm.trans hexec')]
    rfl

end Sys2Proof.Machine
end

section
/-! PROOFS. Every step keeps the invariant (ob. O13): each update of the front-end keeps it, FE_EOF's by the codes that the
classification of the frame determines. -/

namespace Sys2Proof.Machine

open Sys2Proof

/-! ## The codes of a frame that ended (R137) -/

/-- R137: the codes FE_EOF takes from a frame's classification alone. -/
def FrameKind.endCodes (c : Config) : FrameKind → FrameCodes
  | .recognizedConstant id => ⟨.recognizedConstant, id, .ok, none⟩
  | .stateSet p => ⟨.stateSet, 0, .ok, some (decodeState c p).dsi⟩
  | .unknownCommand _ => ⟨.unknownCommand, 0, .unknownCommand, none⟩
  | .malformed r => ⟨.malformed, r.code, if r = .tooShort then .truncated else .malformed, none⟩

/-- R137: FE_EOF's way through DECF's response comes to the codes of the classification. -/
theorem frameEndCodes_decodeFrame (c : Config) (frame : List Byte) :
    frameEndCodes (decodeFrame c frame) = (classify c frame).endCodes c := by
  unfold decodeFrame
  cases hk : classify c frame with
  | recognizedConstant id => simp [frameEndCodes, frameResult, hk, FrameKind.endCodes, FrameKind.kindCode, FrameKind.aux]
  | stateSet p => simp [frameEndCodes, frameResult, hk, FrameKind.endCodes, FrameKind.kindCode]
  | unknownCommand cmd => simp [frameEndCodes, frameResult, hk, FrameKind.endCodes, FrameKind.kindCode]
  | malformed r => cases r <;> rfl

/-- R29, R31, R137, R142: kind, status and id in a combination that the spec produces. -/
structure FrameCodes.Sound (k : FrameCodes) : Prop where
  kind_status : k.kind.goesWith k.status = true
  id_zero : k.kind ≠ .recognizedConstant → k.kind ≠ .malformed → k.id = 0
  id_reason : k.kind = .malformed → 1 ≤ k.id.toNat ∧ k.id.toNat ≤ 5

/-- R143: the reason codes are 1 to 5. -/
theorem MalformedReason.code_range (r : MalformedReason) : 1 ≤ r.code.toNat ∧ r.code.toNat ≤ 5 := by
  cases r <;> decide

theorem overflowCodes_sound : overflowCodes.Sound where
  kind_status := rfl
  id_zero _ h := absurd rfl h
  id_reason _ := MalformedReason.overflow.code_range

theorem FrameKind.endCodes_sound (c : Config) (k : FrameKind) : (k.endCodes c).Sound := by
  cases k with
  | recognizedConstant id => exact ⟨rfl, fun h => absurd rfl h, nofun⟩
  | stateSet p => exact ⟨rfl, fun _ _ => rfl, nofun⟩
  | unknownCommand cmd => exact ⟨rfl, fun _ _ => rfl, nofun⟩
  | malformed r => exact ⟨by cases r <;> rfl, fun _ h => absurd rfl h, fun _ => r.code_range⟩

/-- R136, R137: only a state-set frame has an image for the SRF. -/
theorem FrameKind.endCodes_dsi_eq_some {c : Config} {k : FrameKind} {d : Vector Byte 16}
    (h : (k.endCodes c).dsi = some d) : ∃ p, k = .stateSet p ∧ d = (decodeState c p).dsi := by
  cases k with
  | stateSet p => cases h; exact ⟨p, rfl, rfl⟩
  | recognizedConstant | unknownCommand | malformed => cases h

/-! ## The end of a frame -/

/-- R125: a frame with a direction pair has a direction. -/
theorem frameDirection_isSome {frame : List Byte} (hlen : 3 ≤ frame.length)
    (hpair : isDirectionPair (byteAt frame 1) (byteAt frame 2)) : (frameDirection frame).isSome = true := by
  obtain ⟨h1, h2⟩ | ⟨h1, h2⟩ := hpair <;> simp [frameDirection, Nat.not_lt.mpr hlen, h1, h2]

theorem frameEnd_of_overflow {c : Config} {fe : FrontEnd} (h : fe.rxovf = true) :
    frameEnd c fe = ⟨overflowCodes, false, none, none⟩ := by simp [frameEnd, h]

theorem frameEnd_codes {c : Config} {fe : FrontEnd} (h : fe.rxovf = false) :
    (frameEnd c fe).codes = (classify c fe.received).endCodes c := by
  simp [frameEnd, h, frameEndCodes_decodeFrame]

theorem frameEnd_dir {c : Config} {fe : FrontEnd} (h : fe.rxovf = false) :
    (frameEnd c fe).dir = frameDirection fe.received := by simp [frameEnd, h]

theorem frameEnd_codes_sound (c : Config) (fe : FrontEnd) : (frameEnd c fe).codes.Sound := by
  cases hovf : fe.rxovf with
  | true => rw [frameEnd_of_overflow hovf]; exact overflowCodes_sound
  | false => rw [frameEnd_codes hovf]; exact FrameKind.endCodes_sound c _

/-- R136: what is written to the SRF is the image that the frame's codes hold, of a frame that did not overflow. -/
theorem frameEnd_written {c : Config} {fe : FrontEnd} {d : Vector Byte 16} (h : (frameEnd c fe).written = some d) :
    fe.rxovf = false ∧ (frameEnd c fe).codes.dsi = some d := by
  cases hovf : fe.rxovf with
  | true => rw [frameEnd_of_overflow hovf] at h; cases h
  | false =>
    simp only [frameEnd, hovf, Bool.false_eq_true, if_false, Option.ite_none_right_eq_some] at h ⊢
    exact ⟨trivial, h.2⟩

/-- R124, R136: an SRF write comes from a state-set frame, which has a direction and a payload of P_LEN bytes. -/
theorem frameEnd_of_written {c : Config} {fe : FrontEnd} {d : Vector Byte 16} (h : (frameEnd c fe).written = some d) :
    (frameEnd c fe).codes.kind = .stateSet ∧ (frameEnd c fe).dir.isSome = true ∧
    ∃ p : List Byte, p.length = c.pLen ∧ d = (decodeState c p).dsi := by
  obtain ⟨hovf, hdsi⟩ := frameEnd_written h
  rw [frameEnd_codes hovf] at hdsi ⊢
  rw [frameEnd_dir hovf]
  obtain ⟨p, hk, rfl⟩ := FrameKind.endCodes_dsi_eq_some hdsi
  obtain ⟨hlen, -, hp, -, hpair, -⟩ := classify_stateSet hk
  exact ⟨by rw [hk]; rfl, frameDirection_isSome (by rw [hlen, Config.nSs]; omega) hpair, p, hp, rfl⟩

/-! ## Each update of the front-end keeps the invariant -/

section
variable {c : Config} {fe : FrontEnd}

/-- R135: a push that fits raises RXCNT, which stays in range since NMAX fits a byte; RXOVF is 0, for RXBUF is not full. -/
theorem FrontEnd.inv_pushByte (d : Byte) (h : fe.Inv c) (room : fe.rxcnt.toNat < c.nMax) (hmax : c.nMax ≤ 255) :
    (fe.pushByte d).Inv c where
  rxbuf_length := by simpa using h.rxbuf_length
  rxcnt_le := by rw [FrontEnd.pushByte_rxcnt, byte_succ_toNat (by omega)]; omega
  ovf_full hovf := absurd (h.ovf_full hovf) (Nat.ne_of_lt room)
  __ := h

theorem FrontEnd.inv_overflow (h : fe.Inv c) (full : ¬ fe.rxcnt.toNat < c.nMax) : fe.overflow.Inv c where
  ovf_full _ := Nat.le_antisymm h.rxcnt_le (Nat.le_of_not_lt full)
  __ := h

theorem FrontEnd.inv_clearRx (h : fe.Inv c) : fe.clearRx.Inv c where
  rxcnt_le := Nat.zero_le _
  ovf_full := nofun
  __ := h

theorem FrontEnd.inv_setCtrl (d : Byte) (h : fe.Inv c) : (fe.setCtrl d).Inv c := { h with }

/-- R35, R141(b): FE_EOF leaves the SRF as it was or writes the image of a payload. -/
theorem FrontEnd.endFrame_srf_image (h : fe.Inv c) :
    ((fe.endFrame c).srfValid = false ∧ (fe.endFrame c).srf = Vector.replicate 16 0) ∨
    ((fe.endFrame c).srfValid = true ∧
      ∃ p : List Byte, p.length = c.pLen ∧ (fe.endFrame c).srf = (decodeState c p).dsi) := by
  cases hw : (frameEnd c fe).written with
  | none => simpa [hw] using h.srf_image
  | some d =>
    obtain ⟨-, -, himage⟩ := frameEnd_of_written hw
    exact .inr (by simpa [hw] using himage)

theorem FrontEnd.inv_endFrame (h : fe.Inv c) : (fe.endFrame c).Inv c where
  rxbuf_length := h.rxbuf_length
  rxcnt_le := Nat.zero_le _
  ovf_full := nofun
  dir_zero hdir := by
    have hnone : (frameEnd c fe).dir = none := by simpa using hdir
    simp [hnone]
  kind_status := (frameEnd_codes_sound c fe).kind_status
  id_zero := (frameEnd_codes_sound c fe).id_zero
  id_reason := (frameEnd_codes_sound c fe).id_reason
  written hw := by
    obtain ⟨d, hd⟩ := Option.isSome_iff_exists.mp hw
    obtain ⟨hkind, hdir, -⟩ := frameEnd_of_written hd
    exact ⟨hkind, hdir, by simp [hd]⟩
  srf_image := FrontEnd.endFrame_srf_image h

theorem FrontEnd.Update.inv {fe' : FrontEnd} (hu : fe.Update c fe') (h : fe.Inv c) (hmax : c.nMax ≤ 255) : fe'.Inv c := by
  cases hu with
  | keep => exact h
  | push d room => exact FrontEnd.inv_pushByte d h room hmax
  | overflow full => exact FrontEnd.inv_overflow h full
  | endFrame => exact FrontEnd.inv_endFrame h
  | clearRx => exact FrontEnd.inv_clearRx h
  | setCtrl d => exact FrontEnd.inv_setCtrl d h

end

/-! ## Every step keeps the invariant -/

/-- R6: NMAX fits the 8-bit LEN operand. -/
theorem nMax_le_of_legal {c : Config} (h : c.Legal) : c.nMax ≤ 255 := by
  obtain ⟨-, -, -, hmax, -⟩ := h
  exact hmax

/-- An operation that answers a request leads from a sound state to a sound state. -/
theorem State.Answers.inv {s t : State} (ha : s.Answers (.next t)) (h : s.Inv) : t.Inv := by
  obtain ⟨hlegal, hfe⟩ := h
  obtain ⟨fe, r, hu, ht⟩ := ha
  cases ht
  exact ⟨hlegal, hu.inv hfe (nMax_le_of_legal hlegal)⟩

/-- Settles O13: reset gives the reset registers, accepting and idling keep them, and every answer makes one update. -/
theorem stepKeepsInvariant : Obligations.StepKeepsInvariant := by
  intro s t h hstep
  obtain ⟨-, rfl⟩ | ⟨_, i, -, -, -, hexec⟩ | ⟨_, _, -, -, -, rfl⟩ | ⟨_, _, -, -, -, rfl⟩ | ⟨-, -, -, rfl⟩ := step_cases hstep
  · exact ⟨h.1, FrontEnd.inv_reset s.cfg⟩
  · exact (hexec ▸ exec_answers i s).inv h
  · exact h
  · exact h
  · exact h

end Sys2Proof.Machine
end

section
/-! PROOFS. Which operation writes which front-end registers (ob. O53): each operation's own updates, said once per
instruction, from which the statement reads off the registers. -/

namespace Sys2Proof.Machine

open Sys2Proof

/-- R49: what an operation can make of the front-end registers, by instruction. Where HAS_FE is false, and on an error other
than FE_PUSH's, even a front-end operation keeps them (`keep`). -/
inductive FrontEnd.WrittenBy (c : Config) (fe : FrontEnd) : Instr → FrontEnd → Prop
  | keep (i : Instr) : WrittenBy c fe i fe
  | push (d : Byte) : WrittenBy c fe (.fePush d) (fe.pushByte d)
  | overflow (d : Byte) : WrittenBy c fe (.fePush d) fe.overflow
  | endFrame : WrittenBy c fe .feEof (fe.endFrame c)
  | clearRx : WrittenBy c fe .feAbort fe.clearRx
  | setCtrl (a d : Byte) : WrittenBy c fe (.feWr a d) (fe.setCtrl d)

/-- R63: the check of HAS_FE adds only the error response, which keeps the registers. -/
theorem FrontEnd.writtenBy_of_ifFrontEnd {s t : State} {i : Instr} {k : Host.Outcome State Fault Refusal}
    (hk : k = .next t → s.fe.WrittenBy s.cfg i t.fe) (h : s.ifFrontEnd k = .next t) : s.fe.WrittenBy s.cfg i t.fe := by
  obtain ⟨-, hrun⟩ | ⟨-, rfl⟩ := State.ifFrontEnd_cases h
  · exact hk hrun
  · exact .keep i

/-- R49: every operation writes front-end registers as its own rule says, or not at all. -/
theorem exec_writtenBy {i : Instr} {s t : State} (h : exec i s = .next t) : s.fe.WrittenBy s.cfg i t.fe := by
  cases hi : isCoreOp i with
  | true =>
    obtain ⟨a, ha, -⟩ := exec_eq_answer_of_isCoreOp (s := s) hi rfl rfl
    rw [State.answer_next (ha.symm.trans h)]
    exact .keep i
  | false =>
    cases i with
    | fePush d =>
      refine FrontEnd.writtenBy_of_ifFrontEnd (fun hrun => ?_) h
      split at hrun
      case isTrue => cases hrun; exact .push d
      case isFalse => cases hrun; exact .overflow d
    | feEof => exact FrontEnd.writtenBy_of_ifFrontEnd (fun hrun => by cases hrun; exact .endFrame) h
    | feAbort => exact FrontEnd.writtenBy_of_ifFrontEnd (fun hrun => by cases hrun; exact .clearRx) h
    | feRd a =>
      refine FrontEnd.writtenBy_of_ifFrontEnd (fun hrun => ?_) h
      rw [State.answer_next hrun]
      exact .keep _
    | feWr a d =>
      refine FrontEnd.writtenBy_of_ifFrontEnd (fun hrun => ?_) h
      split at hrun
      case isTrue => cases hrun; exact .setCtrl a d
      case isFalse => cases hrun; exact .keep _
    | _ => cases hi

section
variable {c : Config} {fe fe' : FrontEnd} {i : Instr}

/-- R49: FE_PUSH, FE_EOF, FE_ABORT and FE_WR are the only writers. -/
theorem FrontEnd.WrittenBy.eq_of_ne (hw : fe.WrittenBy c i fe') (hpush : ∀ d, i ≠ .fePush d) (heof : i ≠ .feEof)
    (habort : i ≠ .feAbort) (hwr : ∀ a d, i ≠ .feWr a d) : fe' = fe := by
  cases hw with
  | keep => rfl
  | push d | overflow d => exact absurd rfl (hpush d)
  | endFrame => exact absurd rfl heof
  | clearRx => exact absurd rfl habort
  | setCtrl a d => exact absurd rfl (hwr a d)

/-- R27: FE_WR is the only writer of CTRL. -/
theorem FrontEnd.WrittenBy.ctrl_eq (hw : fe.WrittenBy c i fe') (hwr : ∀ a d, i ≠ .feWr a d) : fe'.ctrl = fe.ctrl := by
  cases hw with
  | keep | push | overflow | endFrame | clearRx => simp
  | setCtrl a d => exact absurd rfl (hwr a d)

/-- R32, R141(a): what FE_EOF records of a frame has no other writer, for the others reach RXBUF, RXCNT, RXOVF and CTRL. -/
theorem FrontEnd.WrittenBy.eq_of_ne_feEof (hw : fe.WrittenBy c i fe') (heof : i ≠ .feEof) :
    fe' = { fe with rxbuf := fe'.rxbuf, rxcnt := fe'.rxcnt, rxovf := fe'.rxovf, ctrl := fe'.ctrl } := by
  cases hw with
  | keep | push | overflow | clearRx | setCtrl => rfl
  | endFrame => exact absurd rfl heof

end

/-- R32: with the front-end present, FE_EOF adds 1 to SEQ. -/
theorem exec_feEof_seq {s t : State} (hfe : s.cfg.hasFe = true) (h : exec .feEof s = .next t) :
    t.fe.seq = s.fe.seq + 1 := by
  have hrun : exec .feEof s = .next ((s.setFe (s.fe.endFrame s.cfg)).respond (.ok (.byte (s.fe.endFrame s.cfg).kindByte))) :=
    State.ifFrontEnd_true hfe _
  cases hrun.symm.trans h
  rfl

/-- Settles O53: the first three clauses by the updates each instruction has, the last by FE_EOF's run. -/
theorem frontEndWriters : Obligations.FrontEndWriters := by
  intro i s t h
  have hw := exec_writtenBy h
  refine ⟨hw.eq_of_ne, hw.ctrl_eq, fun heof => ?frameRegisters, ?seq⟩
  case frameRegisters =>
    rw [hw.eq_of_ne_feEof heof]
    simp
  case seq =>
    rintro rfl hfe
    rw [exec_feEof_seq hfe h]
    exact BitVec.toNat_add s.fe.seq 1

end Sys2Proof.Machine
end

section
/-! PROOFS. An operation's outcome is independent of every bus it does not read (ob. O18). -/

namespace Sys2Proof.Machine

open Sys2Proof

/-! ## The operands that an operation reads (R42, R55) -/

/-- R55: a byte bus is read at the indices of the operand only. -/
theorem fitBytes_congr {n : Nat} {p q : List Byte} (h : ∀ k, k < n → byteAt p k = byteAt q k) :
    fitBytes n p = fitBytes n q := by
  apply List.ext_getElem (by simp)
  intro k hp hq
  have hk : k < n := by simpa using hp
  calc (fitBytes n p)[k] = byteAt p k := by rw [← byteAt_eq_getElem, byteAt_fitBytes n p k hk]
    _ = byteAt q k := h k hk
    _ = (fitBytes n q)[k] := by rw [← byteAt_eq_getElem, byteAt_fitBytes n q k hk]

/-- R42: FRAME bytes at index LEN and above are no part of the operand. -/
theorem frameOperand_congr (c : Config) {b b' : Buses} (hlen : b.len = b'.len)
    (hframe : ∀ k, k < b.len.toNat → byteAt b.frame k = byteAt b'.frame k) : frameOperand c b = frameOperand c b' := by
  rw [frameOperand, frameOperand, fitBytes_congr hframe, hlen]

theorem payloadOperand_congr {c : Config} {b b' : Buses}
    (h : ∀ k, k < c.pLen → byteAt b.payload k = byteAt b'.payload k) : payloadOperand c b = payloadOperand c b' :=
  fitBytes_congr h

/-- R58: field id 11 alone names the temperature. -/
theorem eq_of_fieldOf_targetTemperature : ∀ fid : BitVec 4, fieldOf fid = some .targetTemperature → fid = 11 := by decide

/-- R115: the pack of any other field does not read TEMP. -/
theorem packField_congr_temp (c : Config) (st : Word) {temp temp' : BitVec 16} {f : Field}
    (h : f = .targetTemperature → temp = temp') : packField c st temp f = packField c st temp' f := by
  cases f with
  | targetTemperature => rw [h rfl]
  | power | display | buzzer | eco | heater8Degree | health => rfl
  | sleepMode | mode | windSpeed | verticalVane | horizontalVane => rfl

/-! ## The buses and the response -/

/-- R20: the buses keep nothing past the response, so an answer forgets what they held. -/
theorem State.answer_bus (s : State) (b : Buses) {a a' : Except Error Result} (h : a = a') :
    ({ s with bus := b } : State).answer a = s.answer a' := by
  subst h; rfl

section
variable {s : State} {b : Buses}

/-- R84, R85, R129, R130, R132: what these operations read of the buses is the frame operand. -/
theorem exec_congr_frameOperand {i : Instr} (hi : i ∈ [Instr.csum, .cver, .cls, .dir, .decf])
    (h : frameOperand s.cfg b = frameOperand s.cfg s.bus) : exec i { s with bus := b } = exec i s := by
  cases i with
  | csum => exact s.answer_bus b (by simp only [csumAnswer, h])
  | cver => exact s.answer_bus b (by simp only [cverAnswer, h])
  | cls | dir | decf => exact s.answer_bus b (by simp only [h])
  | _ => simp at hi

/-- R42: an error of the frame operand is the operation's response. -/
theorem exec_of_frameOperand_error {i : Instr} (hi : i ∈ [Instr.csum, .cver, .cls, .dir, .decf]) {e : Error}
    (h : frameOperand s.cfg s.bus = .error e) : exec i s = s.answer (.error e) := by
  cases i with
  | csum => exact congrArg s.answer (by simp only [csumAnswer, h])
  | cver => exact congrArg s.answer (by simp only [cverAnswer, h])
  | cls | dir | decf => exact congrArg s.answer (by simp only [h])
  | _ => simp at hi

/-- R115: FPACK reads STATE, and TEMP for field id 11. -/
theorem exec_fpack_congr {fid : BitVec 4} (hstate : b.state = s.bus.state) (htemp : fid = 11 → b.temp = s.bus.temp) :
    exec (.fpack fid) { s with bus := b } = exec (.fpack fid) s := by
  refine s.answer_bus b ?_
  cases hf : fieldOf fid with
  | none => rfl
  | some f =>
    have hpack : packField s.cfg b.state b.temp f = packField s.cfg s.bus.state s.bus.temp f := by
      rw [hstate]
      exact packField_congr_temp s.cfg s.bus.state fun hT => htemp (eq_of_fieldOf_targetTemperature fid (hT ▸ hf))
    simp only [hpack]

/-- R55: no front-end operation reads a bus. -/
theorem exec_frontEnd_bus {i : Instr} (hi : isCoreOp i = false) : exec i { s with bus := b } = exec i s := by
  cases i with
  | fePush | feEof | feAbort | feRd | feWr => rfl
  | _ => cases hi

end

/-- Settles O18: each operation reads the buses through operands that agree, and its response clears them. -/
theorem unreadBusesIgnored : Obligations.UnreadBusesIgnored := by
  intro s b
  refine ⟨fun htemp => ⟨?tquant, ?tenc⟩, fun hnib => ?tdec,
    fun i hi => ⟨fun hlen hframe => ?frame, fun hlt => ?tooLong⟩,
    fun fid hstate htemp => exec_fpack_congr hstate htemp, fun hstate htemp => ?encf,
    fun hpayload => ⟨?decs, fun fid => ?funpack⟩, fun i hi => exec_frontEnd_bus hi⟩
  case tquant => exact s.answer_bus b (a := .ok _) (a' := .ok _) (by rw [htemp])
  case tenc => exact s.answer_bus b (by simp only [htemp])
  case tdec => exact s.answer_bus b (by simp only [hnib])
  case frame => exact exec_congr_frameOperand hi (frameOperand_congr s.cfg hlen hframe)
  case tooLong => exact exec_of_frameOperand_error hi (frameOperand_of_lt hlt)
  case encf => exact s.answer_bus b (by simp only [hstate, htemp])
  case decs => exact s.answer_bus b (a := .ok _) (a' := .ok _) (by rw [payloadOperand_congr hpayload])
  case funpack => exact s.answer_bus b (by simp only [payloadOperand_congr hpayload])

end Sys2Proof.Machine
end

section
/-! PROOFS. LATENCY and ATTACH are read by nothing (ob. O15): every function of the configuration gives the same value for
another platform, and so `State.withPlatform` commutes with `exec` and with `step`. -/

namespace Sys2Proof

/-! ## A configuration with another LATENCY and ATTACH -/

/-- R6, R50, R160: the configuration `c` with other values of the two parameters that no rule depends on. -/
def Config.withPlatform (c : Config) (latency : List Nat) (attach : Attach) : Config :=
  { c with latency := latency, attach := attach }

section
variable (c : Config) (latency : List Nat) (attach : Attach)

@[simp] theorem Config.withPlatform_fracBits : (c.withPlatform latency attach).fracBits = c.fracBits := rfl
@[simp] theorem Config.withPlatform_pLen : (c.withPlatform latency attach).pLen = c.pLen := rfl
@[simp] theorem Config.withPlatform_nMax : (c.withPlatform latency attach).nMax = c.nMax := rfl
@[simp] theorem Config.withPlatform_ft : (c.withPlatform latency attach).ft = c.ft := rfl
@[simp] theorem Config.withPlatform_hasFe : (c.withPlatform latency attach).hasFe = c.hasFe := rfl
@[simp] theorem Config.withPlatform_kcat : (c.withPlatform latency attach).kcat = c.kcat := rfl
@[simp] theorem Config.withPlatform_nSs : (c.withPlatform latency attach).nSs = c.nSs := rfl

end

end Sys2Proof

namespace Sys2Proof.Machine

open Sys2Proof

/-! ## The functions of the configuration -/

section
variable (c : Config) (latency : List Nat) (attach : Attach)

@[simp] theorem frameOperand_withPlatform (b : Buses) :
    frameOperand (c.withPlatform latency attach) b = frameOperand c b := rfl

@[simp] theorem payloadOperand_withPlatform (b : Buses) :
    payloadOperand (c.withPlatform latency attach) b = payloadOperand c b := by simp [payloadOperand]

@[simp] theorem fetch_withPlatform (w : Word) (b : Buses) :
    fetch (c.withPlatform latency attach) w b = fetch c w b := by simp [fetch, fetchFrameRow]

@[simp] theorem csumAnswer_withPlatform (b : Buses) :
    csumAnswer (c.withPlatform latency attach) b = csumAnswer c b := by simp [csumAnswer]

@[simp] theorem cverAnswer_withPlatform (b : Buses) :
    cverAnswer (c.withPlatform latency attach) b = cverAnswer c b := by simp [cverAnswer]

@[simp] theorem packField_withPlatform (st : Word) (temp : BitVec 16) (f : Field) :
    packField (c.withPlatform latency attach) st temp f = packField c st temp f := by simp [packField]

@[simp] theorem encodeFrame_withPlatform (st : Word) (temp : BitVec 16) :
    encodeFrame (c.withPlatform latency attach) st temp = encodeFrame c st temp := by simp [encodeFrame, packAll]

@[simp] theorem classify_withPlatform (frame : List Byte) :
    classify (c.withPlatform latency attach) frame = classify c frame := rfl

@[simp] theorem decodeState_withPlatform (p : List Byte) :
    decodeState (c.withPlatform latency attach) p = decodeState c p := by simp [decodeState]

@[simp] theorem decodeFrame_withPlatform (frame : List Byte) :
    decodeFrame (c.withPlatform latency attach) frame = decodeFrame c frame := by
  simp [decodeFrame, frameResult, noState]

@[simp] theorem clsResult_withPlatform (frame : List Byte) :
    clsResult (c.withPlatform latency attach) frame = clsResult c frame := by simp [clsResult]

@[simp] theorem decfAnswer_withPlatform (frame : List Byte) :
    decfAnswer (c.withPlatform latency attach) frame = decfAnswer c frame := by simp [decfAnswer]

@[simp] theorem FrontEnd.endFrame_withPlatform (fe : FrontEnd) :
    fe.endFrame (c.withPlatform latency attach) = fe.endFrame c := by simp [FrontEnd.endFrame, frameEnd]

end

/-! ## The outcome with another platform -/

/-- An outcome with its next state moved to another LATENCY and ATTACH. -/
def outcomeWithPlatform (latency : List Nat) (attach : Attach) :
    Host.Outcome State Fault Refusal → Host.Outcome State Fault Refusal
  | .next t => .next (t.withPlatform latency attach)
  | .fault f => .fault f
  | .refused r => .refused r

section
variable (s : State) (latency : List Nat) (attach : Attach)

@[simp] theorem State.withPlatform_cfg :
    (s.withPlatform latency attach).cfg = s.cfg.withPlatform latency attach := rfl
@[simp] theorem State.withPlatform_rst : (s.withPlatform latency attach).rst = s.rst := rfl
@[simp] theorem State.withPlatform_waiting : (s.withPlatform latency attach).waiting = s.waiting := rfl
@[simp] theorem State.withPlatform_cmd : (s.withPlatform latency attach).cmd = s.cmd := rfl
@[simp] theorem State.withPlatform_bus : (s.withPlatform latency attach).bus = s.bus := rfl
@[simp] theorem State.withPlatform_fe : (s.withPlatform latency attach).fe = s.fe := rfl

@[simp] theorem State.withPlatform_setFe (fe : FrontEnd) :
    (s.withPlatform latency attach).setFe fe = (s.setFe fe).withPlatform latency attach := rfl

@[simp] theorem State.withPlatform_respond (r : Response) :
    (s.withPlatform latency attach).respond r = (s.respond r).withPlatform latency attach := rfl

@[simp] theorem State.withPlatform_accept (r : Request) (rest : List Request) :
    (s.withPlatform latency attach).accept r rest = (s.accept r rest).withPlatform latency attach := rfl

@[simp] theorem State.withPlatform_idle :
    (s.withPlatform latency attach).idle = s.idle.withPlatform latency attach := rfl

@[simp] theorem State.withPlatform_assertReset :
    (s.withPlatform latency attach).assertReset = s.assertReset.withPlatform latency attach := rfl

@[simp] theorem outcomeWithPlatform_next :
    outcomeWithPlatform latency attach (.next s) = .next (s.withPlatform latency attach) := rfl

@[simp] theorem outcomeWithPlatform_answer (a : Except Error Result) :
    outcomeWithPlatform latency attach (s.answer a) = (s.withPlatform latency attach).answer a := rfl

/-- R63: both blocks have the front-end or neither has. -/
theorem outcomeWithPlatform_ifFrontEnd (k : Host.Outcome State Fault Refusal) :
    outcomeWithPlatform latency attach (s.ifFrontEnd k) =
      (s.withPlatform latency attach).ifFrontEnd (outcomeWithPlatform latency attach k) := by
  cases hfe : s.cfg.hasFe <;> simp [hfe]

theorem runFrame_withPlatform (frame : List Byte) :
    runFrame frame (s.withPlatform latency attach) = outcomeWithPlatform latency attach (runFrame frame s) := by
  simp [runFrame]

/-- R50, R160: an operation gives the same answer and the same registers on another platform. -/
theorem exec_withPlatform (i : Instr) :
    exec i (s.withPlatform latency attach) = outcomeWithPlatform latency attach (exec i s) := by
  cases i with
  | tquant => simp [exec, execTquant]
  | tenc => simp [exec, execTenc]
  | tdec => simp [exec, execTdec]
  | csum => simp [exec, execCsum]
  | cver => simp [exec, execCver]
  | fpack fid => simp [exec, execFpack]
  | funpack fid => simp [exec, execFunpack]
  | encf => simp [exec, execEncf]
  | cls => simp [exec, execCls]
  | dir => simp [exec, execDir]
  | decs => simp [exec, execDecs]
  | decf => simp [exec, execDecf]
  | fePush d =>
    simp only [exec, execFePush, outcomeWithPlatform_ifFrontEnd]
    by_cases room : s.fe.rxcnt.toNat < s.cfg.nMax <;> simp [room]
  | feEof => simp [exec, execFeEof, outcomeWithPlatform_ifFrontEnd]
  | feAbort => simp [exec, execFeAbort, outcomeWithPlatform_ifFrontEnd]
  | feRd a => simp [exec, execFeRd, outcomeWithPlatform_ifFrontEnd]
  | feWr a d =>
    simp only [exec, execFeWr, outcomeWithPlatform_ifFrontEnd]
    by_cases ha : a = 0#8 <;> simp [ha]
  | keepaliveK0 | statesetA2u | statesetU2a | unknownA2u | unknownU2a => exact runFrame_withPlatform s latency attach _

/-- R50, R160: reset, the answer to a request, acceptance and idling all go the same way on another platform. -/
theorem step_withPlatform :
    step (s.withPlatform latency attach) = outcomeWithPlatform latency attach (step s) := by
  cases hrst : s.rst with
  | true => simp [step, hrst]
  | false =>
    cases hcmd : s.cmd with
    | some w =>
      cases hfetch : fetch s.cfg w s.bus with
      | ok i => simp [step, hrst, hcmd, hfetch, exec_withPlatform]
      | error e => simp [step, hrst, hcmd, hfetch]
    | none =>
      cases hwait : s.waiting with
      | nil => simp [step, hrst, hcmd, hwait]
      | cons r rest => simp [step, hrst, hcmd, hwait]

end

/-- Settles O15, by the commuting square of `step` and `State.withPlatform`. -/
theorem latencyAndAttachIrrelevant : Obligations.LatencyAndAttachIrrelevant := by
  intro s t latency attach h
  rw [step_withPlatform, h, outcomeWithPlatform_next]

end Sys2Proof.Machine
end

section
/-! PROOFS. The decoder read backwards: the bits that decode are the encoding of what they decode to (ob. O8, O9, O10), and the
command words that do not decode are the illegal ones of R63. -/

namespace Sys2Proof.Machine

open Sys2Proof

/-! ## The fields of a command word (R54) -/

section
variable {w : Word}

theorem getLsbD_eq_false_of_cmdReserved {k : Nat} (h : cmdReserved w = 0)
    (hk : (5 ≤ k ∧ k < 8) ∨ (12 ≤ k ∧ k < 16)) : w.getLsbD k = false := by
  have hbit (j : Nat) : (cmdReserved w).getLsbD j = false := by rw [h]; exact BitVec.getLsbD_zero
  simp only [cmdReserved, BitVec.getLsbD_append, BitVec.getLsbD_extractLsb'] at hbit
  obtain ⟨hlo, hhi⟩ | ⟨hlo, hhi⟩ := hk
  · obtain ⟨j, rfl⟩ := Nat.exists_eq_add_of_le hlo
    have hj : j < 3 := by omega
    simpa [hj] using hbit j
  · obtain ⟨j, rfl⟩ := Nat.exists_eq_add_of_le hlo
    have hj : j < 4 := by omega
    simpa [hj] using hbit (j + 3)

/-- R54: a command word whose reserved bits are 0 is made of its fields. -/
theorem cmdWord_fields (h : cmdReserved w = 0) : cmdWord (cmdOp w) (cmdFid w) (cmdA w) (cmdD w) = w := by
  apply BitVec.eq_of_getLsbD_eq
  intro k hk
  rw [getLsbD_cmdWord]
  simp only [cmdOp, cmdFid, cmdA, cmdD, BitVec.getLsbD_extractLsb']
  split_ifs with h5 h8 h12 h16 h24
  · simp [h5]
  · exact (getLsbD_eq_false_of_cmdReserved h (.inl ⟨by omega, h8⟩)).symm
  · simp [show k - 8 < 4 by omega, show 8 + (k - 8) = k by omega]
  · exact (getLsbD_eq_false_of_cmdReserved h (.inr ⟨by omega, h16⟩)).symm
  · simp [show k - 16 < 8 by omega, show 16 + (k - 16) = k by omega]
  · simp [show k - 24 < 8 by omega, show 24 + (k - 24) = k by omega]

theorem cmdOp_toNat (w : Word) : (cmdOp w).toNat = w.toNat % 32 := by simp [cmdOp]

theorem cmdOp_eq_of_toNat {n : Nat} (h : (cmdOp w).toNat = n) : cmdOp w = BitVec.ofNat 5 n := by simp [← h]

/-- R54: the two reserved fields of R63, taken together as the decoder does. -/
theorem cmdReserved_eq_zero_iff : cmdReserved w = 0 ↔ w.extractLsb' 5 3 = 0 ∧ w.extractLsb' 12 4 = 0 := by
  constructor
  · intro h
    constructor
    · apply BitVec.eq_of_getLsbD_eq
      intro k hk
      simpa [hk] using getLsbD_eq_false_of_cmdReserved h (.inl ⟨by omega, by omega⟩)
    · apply BitVec.eq_of_getLsbD_eq
      intro k hk
      simpa [hk] using getLsbD_eq_false_of_cmdReserved h (.inr ⟨by omega, by omega⟩)
  · rintro ⟨h5, h12⟩
    simp [cmdReserved, h5, h12]

end

/-! ## Inverting the decoder -/

theorem ifUnusedZero_eq_ok {b : Bool} {i j : Instr} : ifUnusedZero b i = .ok j ↔ b = true ∧ i = j := by
  cases b <;> simp [ifUnusedZero]

theorem ifUnusedZero_eq_error {b : Bool} {i : Instr} {e : DecodeError} (h : ifUnusedZero b i = .error e) : b = false := by
  cases b with
  | false => rfl
  | true => cases h

/-- R54, R57: a command word that decodes is the encoding of its instruction. -/
theorem encode_of_decodeCmd {w : Word} {i : Instr} (h : decodeCmd w = .ok i) : encode i = .cmd w := by
  unfold decodeCmd at h
  split at h
  case isTrue => cases h
  case isFalse hres =>
    rw [← cmdWord_fields (w := w) (by simpa using hres)]
    split at h
    case h_18 => cases h
    all_goals
      rename_i hop
      obtain ⟨hunused, rfl⟩ := ifUnusedZero_eq_ok.mp h
      simp only [Bool.and_eq_true, beq_iff_eq] at hunused
      simp [encode, cmdOp_eq_of_toNat hop, hunused]

/-- R63 in the decoder's terms: the grounds on which a command word is illegal, over its fields. -/
theorem illegalWord_iff {hasFe : Bool} {w : Word} :
    illegalWord hasFe w ↔
      ((cmdOp w).toNat = 0 ∨ (0x0D ≤ (cmdOp w).toNat ∧ (cmdOp w).toNat ≤ 0x0F) ∨ 0x15 ≤ (cmdOp w).toNat) ∨
      (0x10 ≤ (cmdOp w).toNat ∧ (cmdOp w).toNat ≤ 0x14 ∧ hasFe = false) ∨
      cmdReserved w ≠ 0 ∨
      (cmdFid w ≠ 0 ∧ (cmdOp w).toNat ≠ 0x06 ∧ (cmdOp w).toNat ≠ 0x07) ∨
      (cmdA w ≠ 0 ∧ (cmdOp w).toNat ≠ 0x13 ∧ (cmdOp w).toNat ≠ 0x14) ∨
      (cmdD w ≠ 0 ∧ (cmdOp w).toNat ≠ 0x10 ∧ (cmdOp w).toNat ≠ 0x14) := by
  simp only [illegalWord, cmdOp_toNat, ne_eq, cmdReserved_eq_zero_iff, not_and_or]
  rfl

/-- R63: the decoder rejects illegal command words only. -/
theorem illegalWord_of_decodeCmd_error {w : Word} {e : DecodeError} (h : decodeCmd w = .error e) : illegalWord true w := by
  rw [illegalWord_iff]
  unfold decodeCmd at h
  split at h
  case isTrue hres => exact .inr (.inr (.inl (by simpa using hres)))
  case isFalse =>
    split at h
    case h_18 =>
      simp only [imp_false] at *
      omega
    all_goals
      rename_i hop
      have hunused := ifUnusedZero_eq_error h
      simp only [Bool.and_eq_false_iff, beq_eq_false_iff_ne, or_assoc] at hunused
      simpa [hop] using (Or.inr hunused : cmdReserved w ≠ 0 ∨ _)

/-- R57, R63: the encoding of an instruction is a legal command word where the front-end is present, and the front-end operations
are those with the operation codes 0x10 to 0x14. -/
theorem legal_of_encode_cmd {w : Word} {i : Instr} (h : encode i = .cmd w) :
    ¬ illegalWord true w ∧ (isCoreOp i = false ↔ 0x10 ≤ (cmdOp w).toNat ∧ (cmdOp w).toNat ≤ 0x14) := by
  rw [illegalWord_iff]
  cases i with
  | keepaliveK0 | statesetA2u | statesetU2a | unknownA2u | unknownU2a => cases h
  | _ => cases h; simp [isCoreOp]

/-- Every request is well formed: its fields have the width of its encoding (R54). -/
theorem wellFormed_of_encode_cmd {w : Word} {i : Instr} (h : encode i = .cmd w) : i.wellFormed = true := by
  cases i with
  | keepaliveK0 | statesetA2u | statesetU2a | unknownA2u | unknownU2a => cases h
  | _ => rfl

/-- R55: the rest of a frame row fits where the whole frame's length fits LEN. -/
theorem restFits_iff {b0 b1 b2 cmd : Byte} {rest : List Byte} :
    restFits rest = true ↔ (b0 :: b1 :: b2 :: cmd :: rest).length ≤ 255 := by
  simp only [restFits, decide_eq_true_eq, List.length_cons]

/-- R65: a frame that matches a row is the encoding of the row; one whose length fits LEN makes the row well formed. -/
theorem encode_of_decodeFrameRow {bytes : List Byte} {i : Instr} (h : decodeFrameRow bytes = .ok i) :
    encode i = .frame bytes ∧ (bytes.length ≤ 255 → i.wellFormed = true) := by
  unfold decodeFrameRow at h
  split at h
  case h_2 => cases h
  case h_1 b0 b1 b2 cmd rest =>
    split_ifs at h with h0 ha2u hk0 hcmd hu2a hcmd'
    all_goals
      cases h
      rw [← restFits_iff]
      simp_all [encode, Instr.wellFormed, imp_iff_not_or]

/-! ## The obligations -/

/-- Settles O8, row by row of the opcode table. -/
theorem decodeOfEncode : Obligations.DecodeOfEncode := by
  intro i
  cases i with
  | tquant => exact Laws.RoundTrip.tquant
  | tenc => exact Laws.RoundTrip.tenc
  | tdec => exact Laws.RoundTrip.tdec
  | csum => exact Laws.RoundTrip.csum
  | cver => exact Laws.RoundTrip.cver
  | fpack fid => exact Laws.RoundTrip.fpack fid
  | funpack fid => exact Laws.RoundTrip.funpack fid
  | encf => exact Laws.RoundTrip.encf
  | cls => exact Laws.RoundTrip.cls
  | dir => exact Laws.RoundTrip.dir
  | decs => exact Laws.RoundTrip.decs
  | decf => exact Laws.RoundTrip.decf
  | fePush d => exact Laws.RoundTrip.fePush d
  | feEof => exact Laws.RoundTrip.feEof
  | feAbort => exact Laws.RoundTrip.feAbort
  | feRd a => exact Laws.RoundTrip.feRd a
  | feWr a d => exact Laws.RoundTrip.feWr a d
  | keepaliveK0 => exact Laws.RoundTrip.keepaliveK0
  | statesetA2u rest => exact Laws.RoundTrip.statesetA2u rest
  | statesetU2a rest => exact Laws.RoundTrip.statesetU2a rest
  | unknownA2u cmd rest => exact Laws.RoundTrip.unknownA2u cmd rest
  | unknownU2a cmd rest => exact Laws.RoundTrip.unknownU2a cmd rest

/-- Settles O9: the decoder of each layer, read backwards. -/
theorem encodeOfDecode : Obligations.EncodeOfDecode := by
  refine ⟨fun w i h => ?cmd, fun bytes i hlen h => ?frame⟩
  case cmd => exact ⟨encode_of_decodeCmd h, wellFormed_of_encode_cmd (encode_of_decodeCmd h)⟩
  case frame =>
    obtain ⟨hencode, hwf⟩ := encode_of_decodeFrameRow h
    exact ⟨hencode, hwf hlen⟩

/-- Settles O10, by running the decoder on each word. -/
theorem specWordsDecode : Obligations.SpecWordsDecode := by
  unfold Obligations.SpecWordsDecode
  decide

end Sys2Proof.Machine
end

section
/-! PROOFS. What a step runs: the instruction that the command word decodes to (ob. O2, O4), where a frame row and DECF are one
(ob. O3), and ILLEGAL_OP for the illegal command words alone (ob. O7, O54). -/

namespace Sys2Proof.Machine

open Sys2Proof

/-! ## Frame rows and DECF (R65, R132) -/

/-- R132: DECF is the row of whatever frame its buses hold, a frame above NMAX included. -/
theorem exec_decf_eq_runFrame (s : State) : exec .decf s = runFrame (fitBytes s.bus.len.toNat s.bus.frame) s := by
  obtain ⟨hle, hop⟩ | ⟨hlt, hop⟩ := frameOperand_cases s.cfg s.bus
  · simp [exec, execDecf, runFrame, hop, Nat.not_lt.mpr hle]
  · simp [exec, execDecf, runFrame, hop, hlt]

/-- R65: a frame row is run by its own encoding. -/
theorem exec_eq_runFrame {i : Instr} {bytes : List Byte} (h : encode i = .frame bytes) (s : State) :
    exec i s = runFrame bytes s := by
  cases i with
  | keepaliveK0 | statesetA2u | statesetU2a | unknownA2u | unknownU2a => cases h; rfl
  | _ => cases h

/-- R65: the row that the frame on the bus matches answers as DECF does. -/
theorem exec_frameRow {s : State} {i : Instr} (h : decodeFrameRow (fitBytes s.bus.len.toNat s.bus.frame) = .ok i) :
    exec i s = exec .decf s := by
  rw [exec_eq_runFrame (encode_of_decodeFrameRow h).1, exec_decf_eq_runFrame]

theorem exec_fetchFrameRow (s : State) : exec (fetchFrameRow s.cfg s.bus) s = exec .decf s := by
  obtain ⟨-, hop⟩ | ⟨-, hop⟩ := frameOperand_cases s.cfg s.bus
  · cases hrow : decodeFrameRow (fitBytes s.bus.len.toNat s.bus.frame) with
    | ok i => simpa [fetchFrameRow, hop, hrow] using exec_frameRow hrow
    | error e => simp [fetchFrameRow, hop, hrow]
  · simp [fetchFrameRow, hop]

/-! ## A step at a request in flight -/

section
variable {s : State} {w : Word}

/-- R57, R65: a step at a request runs the instruction its command word decodes to; a DECF request's frame row is DECF. -/
theorem step_of_decodeCmd {i : Instr} (hrst : s.rst = false) (hcmd : s.cmd = some w) (h : decodeCmd w = .ok i) :
    step s = exec i s := by
  by_cases hi : i = .decf
  · subst hi
    simpa [step, hrst, hcmd, fetch, h] using exec_fetchFrameRow s
  · have hfetch : fetch s.cfg w s.bus = .ok i := by simp [fetch, h]
    simp [step, hrst, hcmd, hfetch]

/-- R63: a command word that does not decode is answered with ILLEGAL_OP. -/
theorem step_of_decodeCmd_error {e : DecodeError} (hrst : s.rst = false) (hcmd : s.cmd = some w)
    (h : decodeCmd w = .error e) : step s = .next (s.respond (.err illegalOp)) := by
  simp [step, hrst, hcmd, fetch, h]

end

/-- Settles O2: DECF needs no exception, for its frame row answers the same. -/
theorem stepRunsDecodedRequest : Obligations.StepRunsDecodedRequest :=
  fun _ _ _ hrst hcmd h _ => step_of_decodeCmd hrst hcmd h

/-- Settles O3: DECF's command word decodes to DECF, and the row that the frame matches answers the same. -/
theorem stepRunsFrameRow : Obligations.StepRunsFrameRow := by
  intro s hrst hcmd
  have hstep : step s = exec .decf s := step_of_decodeCmd hrst hcmd (by decide)
  exact ⟨hstep, fun i _ hrow => hstep.trans (exec_frameRow hrow).symm⟩

/-- R54: a well-formed frame row has a length that the 8-bit LEN holds. -/
theorem length_le_of_encode_frame {i : Instr} {bytes : List Byte} (hwf : i.wellFormed = true)
    (h : encode i = .frame bytes) : bytes.length ≤ 255 := by
  cases i with
  | keepaliveK0 => cases h; decide
  | statesetA2u | statesetU2a | unknownA2u | unknownU2a =>
    cases h
    refine restFits_iff.mp ?_
    simp_all [Instr.wellFormed]
  | _ => cases h

/-- Settles O4: a command word decodes back to the instruction, and a frame is loaded as a DECF request of that frame. -/
theorem loadedInstructionRuns : Obligations.LoadedInstructionRuns := by
  intro s i hwf
  cases hcode : encode i with
  | cmd w =>
    have hdecode : decode (encode i) = .ok i := decodeOfEncode i hwf
    rw [hcode] at hdecode
    exact step_of_decodeCmd rfl rfl hdecode
  | frame bytes =>
    have hlen : bytes.length ≤ 255 := length_le_of_encode_frame hwf hcode
    have hbus : fitBytes (s.loadCode (.frame bytes)).bus.len.toNat (s.loadCode (.frame bytes)).bus.frame = bytes := by
      simp [requestOfCode, Nat.mod_eq_of_lt (Nat.lt_succ_of_le hlen), fitBytes_self]
    have hdecf : decodeCmd (cmdWord 0x0C 0 0 0) = .ok .decf := Laws.RoundTrip.decf rfl
    have hstep : step (s.loadCode (.frame bytes)) = exec .decf (s.loadCode (.frame bytes)) := step_of_decodeCmd rfl rfl hdecf
    rw [hstep, exec_decf_eq_runFrame, hbus, exec_eq_runFrame hcode]

end Sys2Proof.Machine
end

section
/-! PROOFS. ILLEGAL_OP: the front-end operations of a block without the front-end (ob. O54), and of all command words exactly
the illegal ones (ob. O7). The errors of every other operation are those that R146 lists. -/

namespace Sys2Proof.Machine

open Sys2Proof

/-- Settles O54: every front-end operation begins with the check of HAS_FE. -/
theorem frontEndAbsentIsIllegal : Obligations.FrontEndAbsentIsIllegal := by
  intro i s hi hfe
  cases i with
  | fePush | feEof | feAbort | feRd | feWr => exact State.ifFrontEnd_false hfe _
  | _ => cases hi

/-! ## The errors of each answer (R146) -/

theorem frameOperand_error {c : Config} {b : Buses} {e : Error} (h : frameOperand c b = .error e) : e = badOperand := by
  obtain ⟨-, hop⟩ | ⟨-, hop⟩ := frameOperand_cases c b <;> cases hop.symm.trans h
  rfl

theorem encodeTemp_error {fracBits : Nat} {temp : BitVec 16} {e : Error} (h : encodeTemp fracBits temp = .error e) :
    e = outOfRange := by
  unfold encodeTemp at h
  split at h <;> cases h
  rfl

theorem packVariant_error {α : Type} {v : Option α} {pack : α → List Byte} {e : Error}
    (h : packVariant v pack = .error e) : e = badOperand := by
  cases v <;> cases h
  rfl

section
variable {c : Config} {st : Word} {temp : BitVec 16} {e : Error}

theorem packField_error {f : Field} (h : packField c st temp f = .error e) : e = badOperand ∨ e = outOfRange := by
  unfold packField at h
  split at h
  · cases h; exact .inl rfl
  cases f with
  | power | display | buzzer | eco | heater8Degree | health => cases h
  | sleepMode | mode | windSpeed | verticalVane | horizontalVane => exact .inl (packVariant_error h)
  | targetTemperature =>
    cases ht : encodeTemp c.fracBits temp with
    | ok nibbles => simp [ht] at h
    | error e' => simp only [ht, Except.error.injEq] at h; exact .inr (h ▸ encodeTemp_error ht)

/-- R121: packing all fields stops at the first field that does not pack. -/
theorem packAll_error (h : packAll c st temp = .error e) : ∃ f, packField c st temp f = .error e := by
  unfold packAll at h
  generalize zeroBytes c.pLen = p at h
  generalize allFields = fs at h
  induction fs generalizing p with
  | nil => cases h
  | cons f fs ih =>
    rw [List.foldlM_cons] at h
    cases hf : packField c st temp f with
    | error e' => simp only [hf] at h; cases h; exact ⟨f, hf⟩
    | ok q => simp only [hf] at h; exact ih _ h

theorem encodeFrame_error (h : encodeFrame c st temp = .error e) : e = badOperand ∨ e = outOfRange := by
  unfold encodeFrame at h
  split at h
  · cases h; exact .inl rfl
  split at h
  · cases h; exact .inr rfl
  split at h
  · cases h
  · rename_i he
    cases h
    obtain ⟨f, hf⟩ := packAll_error he
    exact packField_error hf

end

theorem dirAnswer_error {frame : List Byte} {e : Error} (h : dirAnswer frame = .error e) :
    e = truncated ∨ e = ⟨.malformed, MalformedReason.badDirection.code⟩ := by
  unfold dirAnswer at h
  split at h
  · cases h; exact .inl rfl
  split at h <;> cases h
  exact .inr rfl

theorem decfAnswer_eq_error_iff {c : Config} {frame : List Byte} {e : Error} :
    decfAnswer c frame = .error e ↔ decodeFrame c frame = .error e := by
  unfold decfAnswer
  split <;> simp_all

theorem decfAnswer_eq_ok_iff {c : Config} {frame : List Byte} {d : DecodedFrame} :
    decfAnswer c frame = .ok (.decoded d) ↔ decodeFrame c frame = .ok d := by
  unfold decfAnswer
  split <;> simp_all

/-! ## The errors of each operation (R146) -/

/-- R56: an `Err` response is the error of the answer. -/
theorem State.error_of_answer {s t : State} {a : Except Error Result} {e : Error} (h : s.answer a = .next t)
    (he : t.resp = some (.err e)) : a = .error e := by
  rw [State.answer_next h, State.respond_resp] at he
  cases a with
  | ok r => cases he
  | error e' => cases he; rfl

/-- R128, R132: the errors of DECF and of the frame rows. -/
theorem runFrame_error {frame : List Byte} {s t : State} {e : Error} (h : runFrame frame s = .next t)
    (he : t.resp = some (.err e)) : e ∈ errorsOf .decf := by
  have ha := State.error_of_answer h he
  split at ha
  · cases ha; simp [errorsOf, badOperand]
  · obtain ⟨r, hk, rfl⟩ := decodeFrame_error (decfAnswer_eq_error_iff.mp ha)
    have hovf : r ≠ .overflow := fun hr => classify_ne_overflow _ _ (hr ▸ hk)
    cases r with
    | overflow => exact absurd rfl hovf
    | tooShort | badMarker | badDirection | badLength => simp [errorsOf, MalformedReason.code]

/-- R63: with the front-end present, a front-end operation runs. -/
theorem State.run_of_ifFrontEnd {s t : State} {k : Host.Outcome State Fault Refusal} (hfe : s.cfg.hasFe = true)
    (h : s.ifFrontEnd k = .next t) : k = .next t := (State.ifFrontEnd_true hfe k).symm.trans h

/-- R146: where the operation exists, its errors are those the spec lists for it. -/
theorem exec_err_mem_errorsOf {i : Instr} {s t : State} {e : Error} (hfe : isCoreOp i = true ∨ s.cfg.hasFe = true)
    (h : exec i s = .next t) (he : t.resp = some (.err e)) : e ∈ errorsOf i := by
  cases i with
  | tquant | decs => cases h; cases he
  | tenc =>
    have ha := State.error_of_answer h he
    split at ha <;> cases ha
    rename_i herr
    simp [errorsOf, encodeTemp_error herr, outOfRange]
  | tdec =>
    have ha := State.error_of_answer h he
    split at ha <;> cases ha
    simp [errorsOf, malformedTemperature]
  | csum =>
    have ha := State.error_of_answer h he
    unfold csumAnswer at ha
    split at ha <;> cases ha
    rename_i herr
    simp [errorsOf, frameOperand_error herr, badOperand]
  | cver =>
    have ha := State.error_of_answer h he
    unfold cverAnswer at ha
    split at ha
    · rename_i herr; cases ha; simp [errorsOf, frameOperand_error herr, badOperand]
    · split at ha <;> cases ha
      simp [errorsOf, truncated, MalformedReason.code]
  | fpack fid =>
    have ha := State.error_of_answer h he
    split at ha
    · cases ha; simp [errorsOf, badOperand]
    · split at ha <;> cases ha
      rename_i herr
      obtain rfl | rfl := packField_error herr <;> simp [errorsOf, badOperand, outOfRange]
  | funpack fid =>
    have ha := State.error_of_answer h he
    split at ha <;> cases ha
    simp [errorsOf, badOperand]
  | encf =>
    have ha := State.error_of_answer h he
    split at ha <;> cases ha
    rename_i herr
    obtain rfl | rfl := encodeFrame_error herr <;> simp [errorsOf, badOperand, outOfRange]
  | cls =>
    have ha := State.error_of_answer h he
    split at ha <;> cases ha
    rename_i herr
    simp [errorsOf, frameOperand_error herr, badOperand]
  | dir =>
    have ha := State.error_of_answer h he
    split at ha
    · rename_i herr; cases ha; simp [errorsOf, frameOperand_error herr, badOperand]
    · obtain rfl | rfl := dirAnswer_error ha <;> simp [errorsOf, truncated, MalformedReason.code]
  | decf => exact runFrame_error (exec_decf_eq_runFrame s ▸ h) he
  | keepaliveK0 | statesetA2u | statesetU2a | unknownA2u | unknownU2a => exact runFrame_error h he
  | fePush d =>
    have hrun := State.run_of_ifFrontEnd (hfe.resolve_left nofun) h
    split at hrun <;> cases hrun <;> cases he
    simp [errorsOf, feOverflow]
  | feEof | feAbort =>
    cases State.run_of_ifFrontEnd (hfe.resolve_left nofun) h
    cases he
  | feRd a =>
    have ha := State.error_of_answer (State.run_of_ifFrontEnd (hfe.resolve_left nofun) h) he
    split at ha <;> cases ha
    simp [errorsOf, badOperand]
  | feWr a d =>
    have hrun := State.run_of_ifFrontEnd (hfe.resolve_left nofun) h
    split at hrun <;> cases hrun <;> cases he
    simp [errorsOf, badOperand]

theorem illegalOp_not_mem_errorsOf (i : Instr) : illegalOp ∉ errorsOf i := by
  cases i <;> simp [errorsOf, illegalOp]

/-! ## Illegal command words (R63) -/

/-- R63: without the front-end the words of its operations are illegal as well. -/
theorem illegalWord_iff_illegalWord_true {hasFe : Bool} {w : Word} :
    illegalWord hasFe w ↔
      illegalWord true w ∨ (0x10 ≤ (cmdOp w).toNat ∧ (cmdOp w).toNat ≤ 0x14) ∧ hasFe = false := by
  rw [illegalWord_iff, illegalWord_iff, or_left_comm, or_comm]
  simp only [Bool.true_eq_false, and_false, false_or, and_assoc]

/-- Settles O7: an illegal word does not decode or is a front-end operation that is absent; a legal one decodes to an operation
that is present, and ILLEGAL_OP is not among its errors. -/
theorem illegalWordsAnswerIllegalOp : Obligations.IllegalWordsAnswerIllegalOp := by
  intro s w hrst hcmd
  rw [illegalWord_iff_illegalWord_true]
  cases hdecode : decodeCmd w with
  | error e =>
    have hstep := step_of_decodeCmd_error hrst hcmd hdecode
    exact ⟨fun _ => hstep, absurd (.inl (illegalWord_of_decodeCmd_error hdecode))⟩
  | ok i =>
    obtain ⟨hlegal, hfrontEnd⟩ := legal_of_encode_cmd (encode_of_decodeCmd hdecode)
    rw [← hfrontEnd, step_of_decodeCmd hrst hcmd hdecode]
    refine ⟨fun hillegal => ?absent, fun hpresent t hexec hresp => ?present⟩
    case absent =>
      obtain ⟨hi, hfe⟩ := hillegal.resolve_left hlegal
      exact frontEndAbsentIsIllegal i s hi hfe
    case present =>
      have hfe : isCoreOp i = true ∨ s.cfg.hasFe = true := by
        by_contra hno
        exact hpresent (.inr (by simpa using hno))
      exact illegalOp_not_mem_errorsOf i (exec_err_mem_errorsOf hfe hexec hresp)

end Sys2Proof.Machine
end

section
/-! PROOFS. When a STATE word is valid for a field, as bounds on its numeric fields, and that both of its users reject one that
is not (ob. O20). -/

namespace Sys2Proof.Machine

open Sys2Proof

section
variable {st : Word}

/-- R60: bits 31:22 are 0. -/
theorem stateReservedClear_iff : stateReservedClear st = true ↔ st.toNat < 2 ^ 22 := by
  have hst : st.toNat < 2 ^ 32 := st.isLt
  rw [stateReservedClear, beq_iff_eq, ← BitVec.toNat_inj, BitVec.extractLsb'_toNat, Nat.shiftRight_eq_div_pow]
  change st.toNat / 2 ^ 22 % 2 ^ 10 = 0 ↔ _
  omega

/-- R59, R60: a port code names a variant when it is below their number. -/
theorem isSome_variant_iff {α : Type} (variants : List α) (start len : Nat) :
    (variants[(st.extractLsb' start len).toNat]?).isSome = true ↔
      st.toNat / 2 ^ start % 2 ^ len < variants.length := by
  rw [isSome_getElem?, BitVec.extractLsb'_toNat, Nat.shiftRight_eq_div_pow]

/-- R59: every 2-bit code is a sleep mode's. -/
theorem stateSleep_isSome : (stateSleep st).isSome = true :=
  (isSome_variant_iff SleepMode.all 6 2).mpr (Nat.mod_lt _ (by decide))

/-- R59: every 3-bit code is a wind speed's. -/
theorem stateWind_isSome : (stateWind st).isSome = true :=
  (isSome_variant_iff WindSpeed.all 11 3).mpr (Nat.mod_lt _ (by decide))

theorem stateMode_isSome_iff : (stateMode st).isSome = true ↔ st.toNat / 2 ^ 8 % 8 ≤ 4 :=
  (isSome_variant_iff Mode.all 8 3).trans Nat.lt_succ_iff

theorem stateVerticalVane_isSome_iff : (stateVerticalVane st).isSome = true ↔ st.toNat / 2 ^ 14 % 16 ≤ 8 :=
  (isSome_variant_iff VerticalVane.all 14 4).trans Nat.lt_succ_iff

theorem stateHorizontalVane_isSome_iff : (stateHorizontalVane st).isSome = true ↔ st.toNat / 2 ^ 18 % 16 ≤ 9 :=
  (isSome_variant_iff HorizontalVane.all 18 4).trans Nat.lt_succ_iff

/-- R61, with the invalid codes of R59 as bounds. -/
theorem stateValidFor_iff {f : Field} :
    stateValidFor st f = true ↔
      st.toNat < 2 ^ 22 ∧ (f = .mode → st.toNat / 2 ^ 8 % 8 ≤ 4) ∧
      (f = .verticalVane → st.toNat / 2 ^ 14 % 16 ≤ 8) ∧ (f = .horizontalVane → st.toNat / 2 ^ 18 % 16 ≤ 9) := by
  unfold stateValidFor
  rw [Bool.and_eq_true, stateReservedClear_iff]
  refine and_congr_right fun _ => ?_
  cases f with
  | power | display | buzzer | eco | heater8Degree | health | targetTemperature => simp
  | sleepMode => simpa using stateSleep_isSome
  | windSpeed => simpa using stateWind_isSome
  | mode => simpa using stateMode_isSome_iff
  | verticalVane => simpa using stateVerticalVane_isSome_iff
  | horizontalVane => simpa using stateHorizontalVane_isSome_iff

theorem mem_allFields (f : Field) : f ∈ allFields := by cases f <;> decide

/-- R121: one field for which STATE is not valid stops the encoder. -/
theorem encodeFrame_of_invalid (c : Config) (temp : BitVec 16) {f : Field} (h : stateValidFor st f = false) :
    encodeFrame c st temp = .error badOperand := by
  have hall : allFields.all (stateValidFor st) = false := List.all_eq_false.mpr ⟨f, mem_allFields f, by simp [h]⟩
  simp [encodeFrame, hall]

theorem packVariant_of_not_isSome {α : Type} {v : Option α} (pack : α → List Byte) (h : v.isSome = false) :
    packVariant v pack = .error badOperand := by
  cases v with
  | none => rfl
  | some x => cases h

/-- R61, R115: a field for which STATE is not valid does not pack. -/
theorem packField_of_invalid (c : Config) (temp : BitVec 16) {f : Field} (h : stateValidFor st f = false) :
    packField c st temp f = .error badOperand := by
  cases hres : stateReservedClear st with
  | false => simp [packField, hres]
  | true =>
    unfold stateValidFor at h
    rw [hres, Bool.true_and] at h
    simp only [packField, hres, Bool.not_true, Bool.false_eq_true, if_false]
    cases f with
    | power | display | buzzer | eco | heater8Degree | health | targetTemperature => cases h
    | sleepMode | mode | windSpeed | verticalVane | horizontalVane => exact packVariant_of_not_isSome _ h

end

/-- Settles O20: the validity by its numeric bounds, the responses by the errors of the encoder and the packer. -/
theorem stateWordValidity : Obligations.StateWordValidity := by
  intro s f
  refine ⟨stateValidFor_iff, fun hinvalid => ⟨?encf, fun fid hfid => ?fpack⟩⟩
  case encf => simp [exec, execEncf, encodeFrame_of_invalid s.cfg s.bus.temp hinvalid, badOperand]
  case fpack => simp [exec, execFpack, hfid, packField_of_invalid s.cfg s.bus.temp hinvalid, badOperand]

end Sys2Proof.Machine
end

section
/-! PROOFS. How the STATESET and UNKNOWN frame rows decode (ob. O45, O46). The two directions differ in the header only, so each
fact is about `headedFrame dir`. -/

namespace Sys2Proof.Machine

open Sys2Proof

/-! ## Checksum and direction -/

/-- R82: the last byte is the XOR of those before it exactly when all bytes XOR to 0. -/
theorem verifyFrame_eq_xorFold {frame : List Byte} (h : frame ≠ []) : verifyFrame frame = (xorFold frame == 0) := by
  obtain ⟨p, b, rfl⟩ := frame.eq_nil_or_concat'.resolve_left h
  rw [verifyFrame_append, Bool.eq_iff_iff]
  simp

/-- R65: a frame with the marker, a direction's pair, a command byte, and the bytes after these. -/
def headedFrame : Direction → Byte → List Byte → List Byte
  | .a2u, cmd, rest => [0xBB, 0x00, 0x01, cmd] ++ rest
  | .u2a, cmd, rest => [0xBB, 0x01, 0x00, cmd] ++ rest

section
variable (dir : Direction) (cmd : Byte) (rest : List Byte)

@[simp] theorem headedFrame_length : (headedFrame dir cmd rest).length = rest.length + 4 := by cases dir <;> rfl

@[simp] theorem headedFrame_drop : (headedFrame dir cmd rest).drop 4 = rest := by cases dir <;> rfl

@[simp] theorem headedFrame_marker : byteAt (headedFrame dir cmd rest) 0 = 0xBB := by cases dir <;> rfl

@[simp] theorem headedFrame_cmd : byteAt (headedFrame dir cmd rest) 3 = cmd := by cases dir <;> rfl

theorem headedFrame_pair :
    isDirectionPair (byteAt (headedFrame dir cmd rest) 1) (byteAt (headedFrame dir cmd rest) 2) := by
  cases dir
  · exact .inl ⟨rfl, rfl⟩
  · exact .inr ⟨rfl, rfl⟩

theorem headedFrame_ne_nil : headedFrame dir cmd rest ≠ [] := by cases dir <;> nofun

@[simp] theorem frameDirection_headedFrame : frameDirection (headedFrame dir cmd rest) = some dir := by
  cases dir <;> simp [frameDirection, headedFrame, byteAt]

end

/-! ## Classification (R124) -/

/-- R123: what every catalog entry of a legal configuration meets. -/
theorem legalEntry_of_mem {c : Config} {frame : List Byte} (hlegal : c.Legal) (h : frame ∈ c.kcat) :
    legalEntry c.nMax frame := by
  obtain ⟨-, -, -, -, ⟨-, hentries, -⟩, -⟩ := hlegal
  exact hentries frame h

section
variable {c : Config} {dir : Direction} {cmd : Byte} {rest : List Byte}

/-- R123: the commands of catalog entries are 0x04, 0x09 and 0x0A. -/
theorem stateset_not_mem_kcat (hlegal : c.Legal) : headedFrame dir 0x03 rest ∉ c.kcat := by
  intro hmem
  obtain ⟨-, -, -, -, hcmd⟩ := legalEntry_of_mem hlegal hmem
  simp at hcmd

/-- R123: a catalog entry has at least five bytes. -/
theorem header_not_mem_kcat (hlegal : c.Legal) : headedFrame dir cmd [] ∉ c.kcat := by
  intro hmem
  obtain ⟨hlen, -⟩ := legalEntry_of_mem hlegal hmem
  simp [minFrameLen] at hlen

/-- R124: a frame with a good header, past the catalog, by its length and command. -/
theorem classify_headedFrame (h : headedFrame dir cmd rest ∉ c.kcat) :
    classify c (headedFrame dir cmd rest) =
      if rest = [] then .malformed .tooShort
      else if cmd = 0x03 then
        if rest.length < c.pLen + 1 then .malformed .tooShort
        else if c.pLen + 1 < rest.length then .malformed .badLength
        else .stateSet (rest.take c.pLen)
      else .unknownCommand cmd := by
  have hidx : c.kcat.idxOf? (headedFrame dir cmd rest) = none := List.idxOf?_eq_none_iff.mpr h
  have hshort : (headedFrame dir cmd rest).length < minFrameLen ↔ rest = [] := by
    rw [← List.length_eq_zero_iff, headedFrame_length, minFrameLen]; omega
  have hlt : (headedFrame dir cmd rest).length < c.nSs ↔ rest.length < c.pLen + 1 := by
    rw [headedFrame_length, Config.nSs]; omega
  have hgt : c.nSs < (headedFrame dir cmd rest).length ↔ c.pLen + 1 < rest.length := by
    rw [headedFrame_length, Config.nSs]; omega
  simp only [classify, hidx, hshort, hlt, hgt, headedFrame_marker, headedFrame_pair, headedFrame_cmd, headedFrame_drop,
    ne_eq, not_true_eq_false, if_false]

theorem classify_stateset_short (hlegal : c.Legal) (h : rest.length < c.pLen + 1) :
    classify c (headedFrame dir 0x03 rest) = .malformed .tooShort := by
  rw [classify_headedFrame (stateset_not_mem_kcat hlegal), if_pos rfl, if_pos h, ite_self]

theorem classify_stateset_long (hlegal : c.Legal) (h : c.pLen + 1 < rest.length) :
    classify c (headedFrame dir 0x03 rest) = .malformed .badLength := by
  have hne : rest ≠ [] := List.ne_nil_of_length_pos (by omega)
  rw [classify_headedFrame (stateset_not_mem_kcat hlegal), if_neg hne, if_pos rfl, if_neg (by omega), if_pos h]

theorem classify_stateset (hlegal : c.Legal) (h : rest.length = c.pLen + 1) :
    classify c (headedFrame dir 0x03 rest) = .stateSet (rest.take c.pLen) := by
  have hne : rest ≠ [] := List.ne_nil_of_length_pos (by omega)
  rw [classify_headedFrame (stateset_not_mem_kcat hlegal), if_neg hne, if_pos rfl, if_neg (by omega), if_neg (by omega)]

end

/-! ## Running a frame (R128, R132) -/

section
variable {s : State} {frame : List Byte}

theorem runFrame_of_lt (h : s.cfg.nMax < frame.length) : runFrame frame s = .next (s.respond (.err badOperand)) := by
  simp [runFrame, h]

theorem runFrame_of_tooShort (hlen : frame.length ≤ s.cfg.nMax) (h : classify s.cfg frame = .malformed .tooShort) :
    runFrame frame s = .next (s.respond (.err truncated)) := by
  simp [runFrame, Nat.not_lt.mpr hlen, decfAnswer, decodeFrame, h]

theorem runFrame_of_badLength (hlen : frame.length ≤ s.cfg.nMax) (h : classify s.cfg frame = .malformed .badLength) :
    runFrame frame s = .next (s.respond (.err ⟨.malformed, MalformedReason.badLength.code⟩)) := by
  simp [runFrame, Nat.not_lt.mpr hlen, decfAnswer, decodeFrame, h]

theorem runFrame_of_stateSet {p : List Byte} (hlen : frame.length ≤ s.cfg.nMax) (h : classify s.cfg frame = .stateSet p) :
    runFrame frame s =
      .next (s.respond (.ok (.decoded (frameResult s.cfg frame true (decodeState s.cfg p))))) := by
  simp [runFrame, Nat.not_lt.mpr hlen, decfAnswer, decodeFrame, h]

theorem runFrame_of_unknownCommand {cmd : Byte} (hlen : frame.length ≤ s.cfg.nMax)
    (h : classify s.cfg frame = .unknownCommand cmd) :
    runFrame frame s = .next (s.respond (.ok (.decoded (frameResult s.cfg frame false (noState s.cfg))))) := by
  simp [runFrame, Nat.not_lt.mpr hlen, decfAnswer, decodeFrame, h]

end

/-- R41, R6: a state-set frame fits the FRAME bus. -/
theorem nSs_le_nMax {c : Config} (hlegal : c.Legal) : c.pLen + 5 ≤ c.nMax := by
  obtain ⟨-, -, hfits, -⟩ := hlegal
  exact hfits

section
variable {s : State} {rest : List Byte} (hlegal : s.cfg.Legal) (dir : Direction)
include hlegal

/-- R124, R128: a state-set frame of N_SS bytes. -/
theorem runFrame_stateset (h : rest.length = s.cfg.pLen + 1) :
    runFrame (headedFrame dir 0x03 rest) s = .next (s.respond (.ok (.decoded
      ⟨.stateSet, 0x03, dir, xorFold (headedFrame dir 0x03 rest) == 0, true,
        (decodeState s.cfg (rest.take s.cfg.pLen)).dsi, (decodeState s.cfg (rest.take s.cfg.pLen)).padmap⟩))) := by
  have hfits := nSs_le_nMax hlegal
  have hk : classify s.cfg (headedFrame dir 0x03 rest) = .stateSet (rest.take s.cfg.pLen) := classify_stateset hlegal h
  rw [runFrame_of_stateSet (by rw [headedFrame_length]; omega) hk, frameResult, hk, frameDirection_headedFrame,
    verifyFrame_eq_xorFold (headedFrame_ne_nil dir 0x03 rest)]
  rfl

/-- R124, R128, R42: a state-set frame of any other length. -/
theorem runFrame_stateset_errors :
    (rest.length < s.cfg.pLen + 1 → runFrame (headedFrame dir 0x03 rest) s = .next (s.respond (.err truncated))) ∧
    (s.cfg.pLen + 1 < rest.length → rest.length + 4 ≤ s.cfg.nMax →
      runFrame (headedFrame dir 0x03 rest) s =
        .next (s.respond (.err ⟨.malformed, MalformedReason.badLength.code⟩))) ∧
    (s.cfg.nMax < rest.length + 4 →
      runFrame (headedFrame dir 0x03 rest) s = .next (s.respond (.err badOperand))) := by
  have hfits := nSs_le_nMax hlegal
  refine ⟨fun hshort => ?_, fun hlong hle => ?_, fun hlt => runFrame_of_lt (by simpa using hlt)⟩
  · exact runFrame_of_tooShort (by rw [headedFrame_length]; omega) (classify_stateset_short hlegal hshort)
  · exact runFrame_of_badLength (by simpa using hle) (classify_stateset_long hlegal hlong)

omit hlegal in
/-- R66, R128: a frame of another command that is no catalog entry. -/
theorem runFrame_unknown {cmd : Byte} (hcmd : cmd ≠ 0x03) (hpos : 1 ≤ rest.length) (hle : rest.length + 4 ≤ s.cfg.nMax)
    (hmem : headedFrame dir cmd rest ∉ s.cfg.kcat) :
    runFrame (headedFrame dir cmd rest) s = .next (s.respond (.ok (.decoded
      ⟨.unknownCommand, cmd, dir, xorFold (headedFrame dir cmd rest) == 0, false, Vector.replicate 16 0,
        List.replicate s.cfg.pLen false⟩))) := by
  have hk : classify s.cfg (headedFrame dir cmd rest) = .unknownCommand cmd := by
    rw [classify_headedFrame hmem, if_neg (List.ne_nil_of_length_pos hpos), if_neg hcmd]
  rw [runFrame_of_unknownCommand (by simpa using hle) hk, frameResult, hk, frameDirection_headedFrame,
    verifyFrame_eq_xorFold (headedFrame_ne_nil dir cmd rest)]
  rfl

/-- R124, R128, R42: such a frame without a fifth byte, or above NMAX. -/
theorem runFrame_unknown_errors {cmd : Byte} :
    (rest = [] → runFrame (headedFrame dir cmd rest) s = .next (s.respond (.err truncated))) ∧
    (s.cfg.nMax < rest.length + 4 →
      runFrame (headedFrame dir cmd rest) s = .next (s.respond (.err badOperand))) := by
  refine ⟨?_, fun hlt => runFrame_of_lt (by simpa using hlt)⟩
  rintro rfl
  have hfits := nSs_le_nMax hlegal
  have hk : classify s.cfg (headedFrame dir cmd []) = .malformed .tooShort := by
    rw [classify_headedFrame (header_not_mem_kcat hlegal), if_pos rfl]
  exact runFrame_of_tooShort (by rw [headedFrame_length, List.length_nil]; omega) hk

end

/-- Settles O45: each row runs the frame with its direction's header. -/
theorem statesetFramesDecode : Obligations.StatesetFramesDecode := by
  intro s rest hlegal dec
  refine ⟨fun hlen => ⟨runFrame_stateset hlegal .a2u hlen, runFrame_stateset hlegal .u2a hlen⟩, fun i hi => ?_⟩
  obtain rfl | rfl : i = .statesetA2u rest ∨ i = .statesetU2a rest := by simpa using hi
  · exact runFrame_stateset_errors hlegal .a2u
  · exact runFrame_stateset_errors hlegal .u2a

/-- Settles O46: each row runs the frame with its direction's header. -/
theorem unknownFramesDecode : Obligations.UnknownFramesDecode := by
  intro s cmd rest hlegal hcmd a2u u2a dec
  refine ⟨fun hpos hle => ⟨runFrame_unknown .a2u hcmd hpos hle, runFrame_unknown .u2a hcmd hpos hle⟩,
    fun i hi => ?_⟩
  obtain rfl | rfl : i = .unknownA2u cmd rest ∨ i = .unknownU2a cmd rest := by simpa using hi
  · exact runFrame_unknown_errors hlegal .a2u
  · exact runFrame_unknown_errors hlegal .u2a

end Sys2Proof.Machine
end

section
/-! PROOFS. FE_SEND through the machine (ob. O52): its pushes, two steps each, fill the receive buffer with the frame, and the
FE_EOF after them decodes the buffer as DECF decodes the frame. -/

namespace Sys2Proof.Machine

open Sys2Proof

/-! ## Pushing a frame byte by byte (R135) -/

/-- The receive registers after FE_PUSH of each byte in turn, where all fit. -/
def FrontEnd.pushBytes (fe : FrontEnd) (bytes : List Byte) : FrontEnd := bytes.foldl FrontEnd.pushByte fe

@[simp] theorem FrontEnd.pushBytes_nil (fe : FrontEnd) : fe.pushBytes [] = fe := rfl

@[simp] theorem FrontEnd.pushBytes_cons (fe : FrontEnd) (d : Byte) (bytes : List Byte) :
    fe.pushBytes (d :: bytes) = (fe.pushByte d).pushBytes bytes := rfl

@[simp] theorem FrontEnd.pushBytes_rxovf (fe : FrontEnd) (bytes : List Byte) : (fe.pushBytes bytes).rxovf = fe.rxovf := by
  induction bytes generalizing fe with
  | nil => rfl
  | cons d bytes ih => rw [pushBytes_cons, ih, pushByte_rxovf]

@[simp] theorem FrontEnd.pushBytes_seq (fe : FrontEnd) (bytes : List Byte) : (fe.pushBytes bytes).seq = fe.seq := by
  induction bytes generalizing fe with
  | nil => rfl
  | cons d bytes ih => rw [pushBytes_cons, ih, pushByte_seq]

/-- R135: bytes that fit append to the valid bytes and are counted by RXCNT. -/
theorem FrontEnd.pushBytes_received {c : Config} {fe : FrontEnd} {bytes : List Byte} (hbuf : fe.rxbuf.length = c.nMax)
    (hmax : c.nMax ≤ 255) (hfit : fe.rxcnt.toNat + bytes.length ≤ c.nMax) :
    (fe.pushBytes bytes).received = fe.received ++ bytes ∧
    (fe.pushBytes bytes).rxcnt.toNat = fe.rxcnt.toNat + bytes.length := by
  induction bytes generalizing fe with
  | nil => simp
  | cons d bytes ih =>
    rw [List.length_cons] at hfit
    have hcnt : (fe.pushByte d).rxcnt.toNat = fe.rxcnt.toNat + 1 := byte_succ_toNat (by omega)
    obtain ⟨hreceived, hcount⟩ := ih (fe := fe.pushByte d) (by simpa using hbuf) (by omega)
    rw [pushBytes_cons, hreceived, hcount, received_pushByte d hbuf (by omega) hmax, hcnt, List.length_cons]
    exact ⟨by simp, by omega⟩

theorem exec_fePush_of_room {s : State} (d : Byte) (hfe : s.cfg.hasFe = true) (room : s.fe.rxcnt.toNat < s.cfg.nMax) :
    exec (.fePush d) s = .next ((s.setFe (s.fe.pushByte d)).respond (.ok .done)) :=
  (State.ifFrontEnd_true hfe _).trans (if_pos room)

theorem exec_feEof_of_hasFe {s : State} (hfe : s.cfg.hasFe = true) :
    exec .feEof s = .next ((s.setFe (s.fe.endFrame s.cfg)).respond (.ok (.byte (s.fe.endFrame s.cfg).kindByte))) :=
  State.ifFrontEnd_true hfe _

/-! ## Requests through the machine (log entry 4) -/

/-- The block of configuration `c` between two requests: nothing in flight, the requests `rs` waiting, the front-end
registers `fe`. -/
structure State.Ready (s : State) (c : Config) (rs : List Request) (fe : FrontEnd) : Prop where
  cfg : s.cfg = c
  rst : s.rst = false
  cmd : s.cmd = none
  waiting : s.waiting = rs
  fe : s.fe = fe

/-- R24, R51: the first step accepts the request and the second runs the instruction its command word decodes to. -/
theorem run_request {s t : State} {c : Config} {r : Request} {rs : List Request} {fe : FrontEnd} {i : Instr}
    (h : s.Ready c (r :: rs) fe) (hdecode : decodeCmd r.cmd = .ok i) (hexec : exec i (s.accept r rs) = .next t) (k : Nat) :
    Sys2Proof.core.run (k + 2) s = Sys2Proof.core.run k t := by
  have haccept : step s = .next (s.accept r rs) := (oneRequestAtATime s h.rst).1 r rs h.cmd h.waiting
  have hrun : step (s.accept r rs) = .next t := (step_of_decodeCmd (s := s.accept r rs) h.rst rfl hdecode).trans hexec
  have hfirst : Sys2Proof.core.step s = .next (s.accept r rs) := haccept
  have hsecond : Sys2Proof.core.step (s.accept r rs) = .next t := hrun
  simp only [Host.Core.run, hfirst, hsecond]

section
variable {s : State} {c : Config} {rs : List Request} {fe : FrontEnd}

theorem run_fePush {d : Byte} (h : s.Ready c (requestOf (.fePush d) Buses.quiet :: rs) fe) (hfe : c.hasFe = true)
    (room : fe.rxcnt.toNat < c.nMax) (k : Nat) :
    ∃ t : State, Sys2Proof.core.run (k + 2) s = Sys2Proof.core.run k t ∧ t.Ready c rs (fe.pushByte d) := by
  obtain ⟨rfl, hrst, hcmd, hwait, rfl⟩ := h
  have hexec := exec_fePush_of_room (s := s.accept (requestOf (.fePush d) Buses.quiet) rs) d hfe room
  exact ⟨_, run_request ⟨rfl, hrst, hcmd, hwait, rfl⟩ (Laws.RoundTrip.fePush d rfl) hexec k, rfl, hrst, rfl, rfl, rfl⟩

theorem run_feEof (h : s.Ready c (requestOf .feEof Buses.quiet :: rs) fe) (hfe : c.hasFe = true) (k : Nat) :
    ∃ t : State, Sys2Proof.core.run (k + 2) s = Sys2Proof.core.run k t ∧ t.Ready c rs (fe.endFrame c) := by
  obtain ⟨rfl, hrst, hcmd, hwait, rfl⟩ := h
  have hexec := exec_feEof_of_hasFe (s := s.accept (requestOf .feEof Buses.quiet) rs) hfe
  exact ⟨_, run_request ⟨rfl, hrst, hcmd, hwait, rfl⟩ (Laws.RoundTrip.feEof rfl) hexec k, rfl, hrst, rfl, rfl, rfl⟩

/-- R134, R135: the pushes of a frame that fits, two steps each. -/
theorem run_pushes {bytes : List Byte}
    (h : s.Ready c (bytes.map (fun d => requestOf (.fePush d) Buses.quiet) ++ rs) fe) (hfe : c.hasFe = true)
    (hmax : c.nMax ≤ 255) (hfit : fe.rxcnt.toNat + bytes.length ≤ c.nMax) (k : Nat) :
    ∃ t : State, Sys2Proof.core.run (k + 2 * bytes.length) s = Sys2Proof.core.run k t ∧
      t.Ready c rs (fe.pushBytes bytes) := by
  induction bytes generalizing s fe with
  | nil => exact ⟨s, rfl, h⟩
  | cons d bytes ih =>
    rw [List.length_cons] at hfit
    have hcnt : (fe.pushByte d).rxcnt.toNat = fe.rxcnt.toNat + 1 := byte_succ_toNat (by omega)
    obtain ⟨t, hrun, hready⟩ := run_fePush h hfe (by omega) (k + 2 * bytes.length)
    obtain ⟨t', hrun', hready'⟩ := ih hready (by omega)
    exact ⟨t', hrun.trans hrun', hready'⟩

end

/-- R70, R134: FE_SEND of a frame that fits ends the frame whose bytes are pushed. -/
theorem run_feSend {s : State} {c : Config} {fe : FrontEnd} {bytes : List Byte} (h : s.Ready c (feSend bytes) fe)
    (hfe : c.hasFe = true) (hmax : c.nMax ≤ 255) (hfit : fe.rxcnt.toNat + bytes.length ≤ c.nMax) :
    ∃ t : State, Sys2Proof.core.run (2 * (bytes.length + 1)) s = .next t ∧
      t.Ready c [] ((fe.pushBytes bytes).endFrame c) := by
  obtain ⟨t, hpushes, hready⟩ := run_pushes h hfe hmax hfit 2
  obtain ⟨t', heof, hready'⟩ := run_feEof hready hfe 0
  refine ⟨t', ?_, hready'⟩
  rw [Nat.mul_succ, Nat.add_comm, hpushes]
  exact heof

/-! ## DECF of the same frame (R132, R137) -/

/-- R132: DECF of a frame put on the buses answers from its decoding. -/
theorem exec_decf_withFrame {s : State} {bytes : List Byte} (hmax : s.cfg.nMax ≤ 255) (hlen : bytes.length ≤ s.cfg.nMax) :
    exec .decf (s.withFrame bytes) = (s.withFrame bytes).answer (decfAnswer s.cfg bytes) := by
  have hbus : (s.withFrame bytes).bus.len.toNat = bytes.length := by
    simp only [State.withFrame, BitVec.toNat_ofNat]; omega
  rw [exec_decf_eq_runFrame, hbus]
  change runFrame (fitBytes bytes.length bytes) _ = _
  rw [fitBytes_self, runFrame]
  exact congrArg _ (if_neg (Nat.not_lt.mpr hlen))

/-- R137: the codes of a frame that did not overflow are read off DECF's response to it. -/
theorem frameEnd_codes_eq {c : Config} {fe : FrontEnd} (h : fe.rxovf = false) :
    (frameEnd c fe).codes = frameEndCodes (decodeFrame c fe.received) := by
  rw [frameEnd_codes h, frameEndCodes_decodeFrame]

/-- R56: an `Ok` response is the result of the answer. -/
theorem State.ok_of_answer {s t : State} {a : Except Error Result} {r : Result} (h : s.answer a = .next t)
    (hr : t.resp = some (.ok r)) : a = .ok r := by
  rw [State.answer_next h, State.respond_resp] at hr
  cases a with
  | ok r' => cases hr; rfl
  | error e => cases hr

/-- Settles O52: the run ends the frame that the pushes left in the buffer, and the codes of that end are those of DECF. -/
theorem feSendDecodesLikeDecf : Obligations.FeSendDecodesLikeDecf := by
  intro s bytes hinv hfe hrst hcmd hwait hcnt hovf hlen asked
  obtain ⟨hlegal, hfeInv⟩ := hinv
  have hmax : s.cfg.nMax ≤ 255 := nMax_le_of_legal hlegal
  have hzero : s.fe.rxcnt.toNat = 0 := by rw [hcnt]; rfl
  have hfit : s.fe.rxcnt.toNat + bytes.length ≤ s.cfg.nMax := by omega
  obtain ⟨t, hrun, hready⟩ := run_feSend ⟨rfl, hrst, hcmd, hwait, rfl⟩ hfe hmax hfit
  obtain ⟨hreceived, hcount⟩ := FrontEnd.pushBytes_received hfeInv.rxbuf_length hmax hfit
  have hframe : (s.fe.pushBytes bytes).received = bytes := by
    rw [hreceived, FrontEnd.received, hzero]; rfl
  have hcodes : (frameEnd s.cfg (s.fe.pushBytes bytes)).codes = frameEndCodes (decodeFrame s.cfg bytes) := by
    rw [frameEnd_codes_eq (by simpa using hovf), hframe]
  have hdecf : exec .decf asked = asked.answer (decfAnswer s.cfg bytes) := exec_decf_withFrame hmax hlen
  refine ⟨t, hrun, hready.waiting, hready.cmd, ?_, ?_, ?_, fun e hexec => ?err, fun d hexec => ?ok⟩
  · rw [hready.fe, FrontEnd.endFrame_rxcnt]
  · rw [hready.fe, FrontEnd.endFrame_seq, FrontEnd.pushBytes_seq]
  · rw [hready.fe, FrontEnd.endFrame_lastLen, hcount]; omega
  case err =>
    have herr : decodeFrame s.cfg bytes = .error e :=
      decfAnswer_eq_error_iff.mp (State.error_of_answer (hdecf.symm.trans hexec) rfl)
    rw [hready.fe, FrontEnd.endFrame_lastKind, FrontEnd.endFrame_lastId, hcodes, herr]
    exact ⟨rfl, rfl⟩
  case ok =>
    have hok : decodeFrame s.cfg bytes = .ok d :=
      decfAnswer_eq_ok_iff.mp (State.ok_of_answer (hdecf.symm.trans hexec) rfl)
    rw [hready.fe, FrontEnd.endFrame_lastKind, FrontEnd.endFrame_lastId, hcodes, hok]
    exact ⟨rfl, fun hkind => if_pos hkind⟩

end Sys2Proof.Machine
end

section
/-! PROOFS. The Temperature Codec (ob. O21, O22, O23, O24): the shift of TEMP as the floor on exact rationals, the two nibbles
as arithmetic on the number of quarter degrees, and the responses of TQUANT, TENC and TDEC in these terms. -/

namespace Sys2Proof.Machine

open Sys2Proof

/-! ## Quantization (R71, R77) -/

section
variable {fracBits : Nat}

theorem quantizeTemp_eq_ediv (temp : BitVec 16) : quantizeTemp fracBits temp = temp.toInt / 2 ^ (fracBits - 2) := by
  simp [quantizeTemp, Int.shiftRight_eq_div_pow]

/-- R77: the result always fits the 16 bits of R_TQ, since the shift only brings TEMP nearer to 0 or -1. -/
theorem toInt_ofInt_quantizeTemp (temp : BitVec 16) :
    (BitVec.ofInt 16 (quantizeTemp fracBits temp)).toInt = quantizeTemp fracBits temp := by
  have hlow : -2 ^ 15 ≤ temp.toInt := BitVec.le_toInt temp
  have hhigh : temp.toInt < 2 ^ 15 := BitVec.toInt_lt
  have hpos : (0 : Int) < 2 ^ (fracBits - 2) := by positivity
  have hge : -2 ^ 15 ≤ quantizeTemp fracBits temp := by
    rw [quantizeTemp_eq_ediv, Int.le_ediv_iff_mul_le hpos]
    nlinarith
  have hlt : quantizeTemp fracBits temp < 2 ^ 15 := by
    rw [quantizeTemp_eq_ediv, Int.ediv_lt_iff_lt_mul hpos]
    nlinarith
  rw [BitVec.toInt_ofInt]
  exact Int.bmod_eq_of_le (by omega) (by omega)

/-- One degree is four quarter degrees, in the unit `2^-F` of TEMP. -/
theorem two_pow_fracBits (hF : 2 ≤ fracBits) : (2 : Int) ^ fracBits = 4 * 2 ^ (fracBits - 2) := by
  rw [← Nat.sub_add_cancel hF, pow_add, Nat.add_sub_cancel, mul_comm]; rfl

/-- R72: the range test, in quarter degrees. -/
theorem tempInRange_iff_quarters (hF : 2 ≤ fracBits) (temp : BitVec 16) :
    tempInRange fracBits temp = true ↔
      64 * 2 ^ (fracBits - 2) ≤ temp.toInt ∧ temp.toInt ≤ 124 * 2 ^ (fracBits - 2) := by
  rw [tempInRange, Bool.and_eq_true, decide_eq_true_eq, decide_eq_true_eq, two_pow_fracBits hF, ← mul_assoc, ← mul_assoc]
  rfl

/-- R78: an accepted temperature has 64 to 124 quarter degrees. -/
theorem exists_quarters_of_tempInRange (hF : 2 ≤ fracBits) {temp : BitVec 16} (h : tempInRange fracBits temp = true) :
    ∃ q : ℕ, quantizeTemp fracBits temp = q ∧ 64 ≤ q ∧ q ≤ 124 := by
  obtain ⟨hlow, hhigh⟩ := (tempInRange_iff_quarters hF temp).mp h
  have hpos : (0 : Int) < 2 ^ (fracBits - 2) := by positivity
  have hge : 64 ≤ quantizeTemp fracBits temp := by
    rwa [quantizeTemp_eq_ediv, Int.le_ediv_iff_mul_le hpos]
  have hle : quantizeTemp fracBits temp ≤ 124 := by
    rw [quantizeTemp_eq_ediv, ← Int.mul_ediv_cancel 124 hpos.ne']
    exact Int.ediv_le_ediv hpos hhigh
  exact ⟨(quantizeTemp fracBits temp).toNat, by omega, by omega, by omega⟩

end

section
variable {c : Config} (temp : BitVec 16)

/-- R72: the integer range test is the test on the temperature itself. -/
theorem tempInRange_iff_celsius :
    tempInRange c.fracBits temp = true ↔ 16 ≤ celsius c temp ∧ celsius c temp ≤ 31 := by
  have hpos : (0 : ℚ) < 2 ^ c.fracBits := by positivity
  rw [tempInRange, Bool.and_eq_true, decide_eq_true_eq, decide_eq_true_eq, celsius, le_div_iff₀ hpos, div_le_iff₀ hpos]
  norm_cast

variable (hF : 2 ≤ c.fracBits)
include hF

/-- R71, R77: the shift by F - 2 is the floor of four times the temperature. -/
theorem floor_celsius_mul_four : ⌊celsius c temp * 4⌋ = quantizeTemp c.fracBits temp := by
  have hpow : (2 : ℚ) ^ c.fracBits = 4 * 2 ^ (c.fracBits - 2) := mod_cast two_pow_fracBits hF
  have hquot : celsius c temp * 4 = (temp.toInt : ℚ) / ((2 ^ (c.fracBits - 2) : ℕ) : ℚ) := by
    rw [celsius, hpow]; push_cast; field_simp
  rw [hquot, Rat.floor_intCast_div_natCast, quantizeTemp_eq_ediv, Nat.cast_pow, Nat.cast_ofNat]

theorem quantize_celsius : quantize (celsius c temp) = (quantizeTemp c.fracBits temp : ℚ) / 4 := by
  rw [quantize, floor_celsius_mul_four temp hF]

theorem floor_quantize_celsius : ⌊quantize (celsius c temp)⌋ = quantizeTemp c.fracBits temp / 4 := by
  rw [quantize_celsius temp hF]
  exact Rat.floor_intCast_div_natCast _ 4

end

/-! ## The TEMP word of a number of quarter degrees (R11) -/

section
variable {fracBits q : Nat}

/-- For a legal F, TEMP can hold every temperature that a nibble pair can. -/
theorem toInt_tempWord (hF10 : fracBits ≤ 10) (hq : q ≤ 127) :
    (tempWord fracBits q).toInt = q * 2 ^ (fracBits - 2) := by
  have hpow : 2 ^ (fracBits - 2) ≤ 2 ^ 8 := Nat.pow_le_pow_right (by decide) (by omega)
  have hlt : q * 2 ^ (fracBits - 2) < 2 ^ 15 := by nlinarith
  rw [tempWord, BitVec.toInt_ofNat', Int.bmod_eq_of_le (by omega) (by omega)]
  push_cast; rfl

theorem quantizeTemp_tempWord (hF10 : fracBits ≤ 10) (hq : q ≤ 127) :
    quantizeTemp fracBits (tempWord fracBits q) = q := by
  rw [quantizeTemp_eq_ediv, toInt_tempWord hF10 hq]
  exact Int.mul_ediv_cancel _ (by positivity)

theorem tempInRange_tempWord (hF : 2 ≤ fracBits) (hF10 : fracBits ≤ 10) (hq : q ≤ 127) :
    tempInRange fracBits (tempWord fracBits q) = true ↔ 64 ≤ q ∧ q ≤ 124 := by
  have hpos : (0 : Int) < 2 ^ (fracBits - 2) := by positivity
  rw [tempInRange_iff_quarters hF, toInt_tempWord hF10 hq, mul_le_mul_iff_left₀ hpos, mul_le_mul_iff_left₀ hpos]
  omega

end

/-! ## The nibble pair of a number of quarter degrees (R73, R74, R75) -/

/-- R74: the NIB byte of a temperature in quarter degrees: T_INT in the high nibble, T_FRAC in the low one. -/
def nibOfQuarters (q : ℕ) : Byte := BitVec.ofNat 4 (31 - q / 4) ++ BitVec.ofNat 4 (4 * (q % 4))

/-- R75: the temperature of a NIB byte in quarter degrees. -/
def quartersOfNib (nib : Byte) : ℕ := 4 * (31 - nib.toNat / 16) + nib.toNat % 16 / 4

theorem nibInt_toNat (nib : Byte) : (nibInt nib).toNat = nib.toNat / 16 := by
  have hlt : nib.toNat < 256 := nib.isLt
  rw [nibInt, BitVec.extractLsb'_toNat, Nat.shiftRight_eq_div_pow]
  omega

theorem nibFrac_toNat (nib : Byte) : (nibFrac nib).toNat = nib.toNat % 16 := by
  rw [nibFrac, BitVec.extractLsb'_toNat, Nat.shiftRight_zero]

/-- R74: T_INT fits its nibble, since an accepted temperature is at least 16 degrees. -/
theorem nibOfQuarters_toNat {q : ℕ} (hlow : 64 ≤ q) (hhigh : q ≤ 127) :
    (nibOfQuarters q).toNat = 16 * (31 - q / 4) + 4 * (q % 4) := by
  have hfrac : 4 * (q % 4) < 2 ^ 4 := by omega
  rw [nibOfQuarters, BitVec.toNat_append, BitVec.toNat_ofNat, BitVec.toNat_ofNat, Nat.mod_eq_of_lt hfrac,
    ← Nat.shiftLeft_add_eq_or_of_lt hfrac, Nat.shiftLeft_eq]
  omega

theorem quartersOfNib_bounds (nib : Byte) : 64 ≤ quartersOfNib nib ∧ quartersOfNib nib ≤ 127 := by
  have hlt : nib.toNat < 256 := nib.isLt
  unfold quartersOfNib
  omega

theorem quartersOfNib_nibOfQuarters {q : ℕ} (hlow : 64 ≤ q) (hhigh : q ≤ 127) :
    quartersOfNib (nibOfQuarters q) = q := by
  rw [quartersOfNib, nibOfQuarters_toNat hlow hhigh]
  omega

/-- R80 (b): a NIB byte whose T_FRAC is in the table is the one its temperature encodes to. -/
theorem nibOfQuarters_quartersOfNib {nib : Byte} (h : nib.toNat % 4 = 0) : nibOfQuarters (quartersOfNib nib) = nib := by
  have hlt : nib.toNat < 256 := nib.isLt
  obtain ⟨hlow, hhigh⟩ := quartersOfNib_bounds nib
  apply BitVec.eq_of_toNat_eq
  rw [nibOfQuarters_toNat hlow hhigh, quartersOfNib]
  omega

/-- R73: the table holds the multiples of 4. -/
theorem fracInTable_iff (tFrac : BitVec 4) : fracInTable tFrac = true ↔ tFrac.toNat % 4 = 0 := by
  revert tFrac; decide

theorem mem_fracTable_iff (nib : Byte) : nib.toNat % 16 ∈ [0x0, 0x4, 0x8, 0xC] ↔ nib.toNat % 4 = 0 := by
  simp only [List.mem_cons, List.not_mem_nil, or_false]
  omega

theorem decodeTemp_nib (nib : Byte) :
    decodeTemp (nibInt nib) (nibFrac nib) = if nib.toNat % 4 = 0 then some (quartersOfNib nib) else none := by
  have htable : fracInTable (nibFrac nib) = true ↔ nib.toNat % 4 = 0 := by
    rw [fracInTable_iff, nibFrac_toNat]; omega
  simp only [decodeTemp, htable, nibInt_toNat, nibFrac_toNat, quartersOfNib]

/-! ## The responses of TENC and TDEC -/

/-- R78 `tq >> 2`, as the model writes it, by an `Int` amount. -/
theorem natCast_shiftRight_two (q : ℕ) : (q : Int) >>> (2 : Int) = (q / 4 : ℕ) :=
  (Int.shiftRight_natCast q 2).trans (congrArg Nat.cast (Nat.shiftRight_eq_div_pow q 2))

section
variable {s : State}

theorem exec_tenc_of_inRange (h : tempInRange s.cfg.fracBits s.bus.temp = true) {q : ℕ}
    (hq : quantizeTemp s.cfg.fracBits s.bus.temp = q) (hlow : 64 ≤ q) (hhigh : q ≤ 124) :
    exec .tenc s = .next (s.respond (.ok (.nib (nibOfQuarters q)))) := by
  have hint : ((31 : ℕ) : Int) - (q : Int) >>> (2 : Int) = (31 - q / 4 : ℕ) := by
    rw [natCast_shiftRight_two]; omega
  have hfrac : (4 : Int) * (q % 4) = (4 * (q % 4) : ℕ) := by push_cast; rfl
  simp only [exec, execTenc, encodeTemp, h, hq, if_true, hint, hfrac, BitVec.ofInt_natCast, State.answer_ok,
    nibOfQuarters]

theorem exec_tenc_of_not_inRange (h : tempInRange s.cfg.fracBits s.bus.temp = false) :
    exec .tenc s = .next (s.respond (.err ⟨.outOfRange, 0⟩)) := by
  simp [exec, execTenc, encodeTemp, h, outOfRange]

/-- R78: every NIB that TENC gives is that of an accepted number of quarter degrees. -/
theorem exec_tenc_eq_nib (hF : 2 ≤ s.cfg.fracBits) {v : Byte} (h : exec .tenc s = .next (s.respond (.ok (.nib v)))) :
    ∃ q : ℕ, quantizeTemp s.cfg.fracBits s.bus.temp = q ∧ 64 ≤ q ∧ q ≤ 124 ∧ v = nibOfQuarters q := by
  cases hr : tempInRange s.cfg.fracBits s.bus.temp with
  | true =>
    obtain ⟨q, hq, hlow, hhigh⟩ := exists_quarters_of_tempInRange hF hr
    have hexec := exec_tenc_of_inRange hr hq hlow hhigh
    cases State.ok_of_answer (a := .ok _) (hexec.symm.trans h) rfl
    exact ⟨q, hq, hlow, hhigh, rfl⟩
  | false =>
    have hexec := exec_tenc_of_not_inRange hr
    cases State.ok_of_answer (a := .error _) (hexec.symm.trans h) rfl

theorem exec_tdec_of_inTable (h : s.bus.nib.toNat % 4 = 0) :
    exec .tdec s = .next (s.respond (.ok (.tq (BitVec.ofNat 16 (quartersOfNib s.bus.nib))))) := by
  simp [exec, execTdec, decodeTemp_nib, h]

theorem exec_tdec_of_not_inTable (h : s.bus.nib.toNat % 4 ≠ 0) :
    exec .tdec s = .next (s.respond (.err ⟨.malformedField, 11⟩)) := by
  simp [exec, execTdec, decodeTemp_nib, h, malformedTemperature]

theorem quarters_toNat (nib : Byte) : (BitVec.ofNat 16 (quartersOfNib nib)).toNat = quartersOfNib nib :=
  Nat.mod_eq_of_lt ((quartersOfNib_bounds nib).2.trans_lt (by decide))

/-- R79: every temperature that TDEC gives is that of its NIB, whose T_FRAC is in the table. -/
theorem exec_tdec_eq_tq {v : BitVec 16} (h : exec .tdec s = .next (s.respond (.ok (.tq v)))) :
    s.bus.nib.toNat % 4 = 0 ∧ v.toNat = quartersOfNib s.bus.nib := by
  by_cases hn : s.bus.nib.toNat % 4 = 0
  · cases State.ok_of_answer (a := .ok _) ((exec_tdec_of_inTable hn).symm.trans h) rfl
    exact ⟨hn, quarters_toNat _⟩
  · cases State.ok_of_answer (a := .error _) ((exec_tdec_of_not_inTable hn).symm.trans h) rfl

end

/-! ## The obligations -/

/-- Settles O21: the shift is the floor, and its result fits R_TQ. -/
theorem tquantTruncatesToLowerQuarter : Obligations.TquantTruncatesToLowerQuarter := by
  refine ⟨by decide, fun s hF => ⟨_, rfl, ?_⟩⟩
  rw [toInt_ofInt_quantizeTemp, quantize_celsius _ hF]

/-- Settles O22: an accepted temperature by its number of quarter degrees, any other by the range test. -/
theorem tencGivesNibbles : Obligations.TencGivesNibbles := by
  refine ⟨by decide, fun s hF => ⟨fun hge hle => ?accepted, fun hout => ?rejected⟩⟩
  case accepted =>
    have hr := (tempInRange_iff_celsius s.bus.temp).mpr ⟨hge, hle⟩
    obtain ⟨q, hq, hlow, hhigh⟩ := exists_quarters_of_tempInRange hF hr
    have hnib := nibOfQuarters_toNat hlow (by omega : q ≤ 127)
    have hfloor : ⌊quantize (celsius s.cfg s.bus.temp)⌋ = (q / 4 : ℕ) := by
      rw [floor_quantize_celsius _ hF, hq]; rfl
    refine ⟨nibOfQuarters q, exec_tenc_of_inRange hr hq hlow hhigh, ?int, ?frac⟩
    case int =>
      rw [hfloor, hnib]
      omega
    case frac =>
      have hfrac : (nibOfQuarters q).toNat % 16 = 4 * (q % 4) := by rw [hnib]; omega
      have hsplit : (q : ℚ) = 4 * (q / 4 : ℕ) + (q % 4 : ℕ) := mod_cast (Nat.div_add_mod q 4).symm
      rw [hfloor, quantize_celsius _ hF, hq, hfrac, Int.cast_natCast, Int.cast_natCast, Nat.cast_mul, Nat.cast_ofNat]
      linarith
  case rejected =>
    exact exec_tenc_of_not_inRange (Bool.eq_false_iff.mpr (mt (tempInRange_iff_celsius s.bus.temp).mp hout))

/-- Settles O24: (a) and (b) by the two inverse laws of the nibble pair, (c) by the monotonicity of the floor. -/
theorem temperatureRoundTrips : Obligations.TemperatureRoundTrips := by
  intro s s' hcfg hF hF10
  refine ⟨fun q hlow hhigh htemp => ?decEnc, fun v hdec htemp => ?encDec, fun v v' henc henc' hle => ?monotone⟩
  case decEnc =>
    have hq127 : q ≤ 127 := by omega
    have hr : tempInRange s.cfg.fracBits s.bus.temp = true :=
      htemp ▸ (tempInRange_tempWord hF hF10 hq127).mpr ⟨hlow, hhigh⟩
    have hq : quantizeTemp s.cfg.fracBits s.bus.temp = q := htemp ▸ quantizeTemp_tempWord hF10 hq127
    refine ⟨nibOfQuarters q, exec_tenc_of_inRange hr hq hlow hhigh, fun hnib => ?_⟩
    have hmod : s'.bus.nib.toNat % 4 = 0 := by rw [hnib, nibOfQuarters_toNat hlow hq127]; omega
    rw [exec_tdec_of_inTable hmod, hnib, quartersOfNib_nibOfQuarters hlow hq127]
  case encDec =>
    obtain ⟨hmod, hv⟩ := exec_tdec_eq_tq hdec
    obtain ⟨hlow, hhigh⟩ := quartersOfNib_bounds s.bus.nib
    rw [hv, ← hcfg] at htemp
    rw [← hcfg] at hF hF10
    have hrange : tempInRange s'.cfg.fracBits s'.bus.temp = true ↔ _ := htemp ▸ tempInRange_tempWord hF hF10 hhigh
    rw [hv]
    split
    case isTrue hle =>
      have hq : quantizeTemp s'.cfg.fracBits s'.bus.temp = quartersOfNib s.bus.nib :=
        htemp ▸ quantizeTemp_tempWord hF10 hhigh
      rw [exec_tenc_of_inRange (hrange.mpr ⟨hlow, hle⟩) hq hlow hle, nibOfQuarters_quartersOfNib hmod]
    case isFalse hgt =>
      exact exec_tenc_of_not_inRange (Bool.eq_false_iff.mpr fun hr => hgt (hrange.mp hr).2)
  case monotone =>
    obtain ⟨q, hq, hlow, hhigh, rfl⟩ := exec_tenc_eq_nib hF henc
    obtain ⟨q', hq', hlow', hhigh', rfl⟩ := exec_tenc_eq_nib (hcfg ▸ hF) henc'
    have hqq : (q : Int) ≤ q' := by
      rw [← hq, ← hq', hcfg, quantizeTemp_eq_ediv, quantizeTemp_eq_ediv]
      exact Int.ediv_le_ediv (by positivity) hle
    rw [nibOfQuarters_toNat hlow (by omega), nibOfQuarters_toNat hlow' (by omega)]
    omega

/-- Settles O23: the table by the remainder of T_FRAC modulo 4. -/
theorem tdecInvertsTheTable : Obligations.TdecInvertsTheTable := by
  refine ⟨by decide, fun s => ⟨fun hmem => ?decoded, fun hmem => ?malformed⟩⟩
  case decoded =>
    have hmod := (mem_fracTable_iff s.bus.nib).mp hmem
    refine ⟨_, exec_tdec_of_inTable hmod, ?_⟩
    have hlt : s.bus.nib.toNat < 256 := s.bus.nib.isLt
    have hquarters : 4 * quartersOfNib s.bus.nib + 16 * (s.bus.nib.toNat / 16) = 16 * 31 + s.bus.nib.toNat % 16 := by
      unfold quartersOfNib; omega
    have hcast : (4 : ℚ) * quartersOfNib s.bus.nib + 16 * (s.bus.nib.toNat / 16 : ℕ) =
        16 * 31 + (s.bus.nib.toNat % 16 : ℕ) := mod_cast hquarters
    rw [quarters_toNat]
    linarith
  case malformed => exact exec_tdec_of_not_inTable (mt (mem_fracTable_iff s.bus.nib).mpr hmem)

end Sys2Proof.Machine
end

section
/-! PROOFS. The Checksum Unit (ob. O25, O26, O27) and DECF's indifference to the checksum byte (ob. O42): the frame operand as the
bytes at 0..LEN-1, CVER's response read both ways, and what a flipped bit does to the XOR of a frame. -/

namespace Sys2Proof

/-! ## The frame operand byte by byte (R42) -/

theorem fitBytes_eq_map_range (n : Nat) (p : List Byte) : fitBytes n p = (List.range n).map (byteAt p) := by
  apply List.ext_getElem (by simp)
  intro i hi _
  rw [← byteAt_eq_getElem, byteAt_fitBytes n p i (by simpa using hi), List.getElem_map, List.getElem_range]

@[simp] theorem fitBytes_zero (p : List Byte) : fitBytes 0 p = [] := by simp [fitBytes]

theorem fitBytes_succ (n : Nat) (p : List Byte) : fitBytes (n + 1) p = fitBytes n p ++ [byteAt p n] := by
  simp [fitBytes_eq_map_range, List.range_succ]

/-! ## Flipping bits of a frame (R86) -/

/-- R86: a change of one byte by a XOR changes the XOR of all bytes by the same. -/
theorem xorFold_modify_xor {p : List Byte} {i : Nat} (b : Byte) (h : i < p.length) :
    xorFold (p.modify i (· ^^^ b)) = xorFold p ^^^ b := by
  induction p generalizing i with
  | nil => simp at h
  | cons a p ih =>
    cases i with
    | zero => simp only [List.modify_zero_cons, xorFold_cons, BitVec.xor_assoc, BitVec.xor_comm b]
    | succ i => simp only [List.modify_succ_cons, xorFold_cons, ih (Nat.lt_of_succ_lt_succ h), BitVec.xor_assoc]

/-- R86 (c): the same change of two bytes leaves the XOR of all bytes. -/
theorem xorFold_modify_xor_twice {p : List Byte} {i k : Nat} (b : Byte) (hi : i < p.length) (hk : k < p.length) :
    xorFold ((p.modify k (· ^^^ b)).modify i (· ^^^ b)) = xorFold p := by
  rw [xorFold_modify_xor b (by simpa using hi), xorFold_modify_xor b hk, BitVec.xor_assoc, BitVec.xor_self,
    BitVec.xor_zero]

theorem dropLast_modify {α : Type} (l : List α) (i : Nat) (f : α → α) :
    (l.modify i f).dropLast = l.dropLast.modify i f := by
  apply List.ext_getElem (by simp)
  intro k _ _
  simp [List.getElem_modify]

/-- A byte with one bit set is not zero. -/
theorem one_shiftLeft_ne_zero {j : Nat} (h : j < 8) : 1#8 <<< j ≠ 0 := by
  intro hzero
  have hbit : (1#8 <<< j).getLsbD j = true := by simp [h]
  rw [hzero] at hbit
  simp at hbit

end Sys2Proof

namespace Sys2Proof.Machine

open Sys2Proof

/-- R84: the running XOR over the bus is the fold of the frame operand. -/
theorem busXor_eq_xorFold (b : Buses) (n : Nat) : busXor b n = xorFold (fitBytes n b.frame) := by
  rw [fitBytes_eq_map_range, xorFold, List.foldl_map, busXor]

/-! ## A frame put on the buses -/

section
variable {s : State} {bytes : List Byte}

theorem State.withFrame_len (h : bytes.length ≤ 255) : (s.withFrame bytes).bus.len.toNat = bytes.length := by
  simp only [State.withFrame, BitVec.toNat_ofNat]
  omega

theorem fitBytes_withFrame (h : bytes.length ≤ 255) :
    fitBytes (s.withFrame bytes).bus.len.toNat (s.withFrame bytes).bus.frame = bytes := by
  rw [State.withFrame_len h]
  exact fitBytes_self bytes

theorem frameOperand_withFrame (h : bytes.length ≤ 255) (hmax : bytes.length ≤ s.cfg.nMax) :
    frameOperand (s.withFrame bytes).cfg (s.withFrame bytes).bus = .ok bytes := by
  rw [frameOperand_of_le (by rwa [State.withFrame_len h]), fitBytes_withFrame h]

end

/-! ## The response of CVER (R85) -/

section
variable {s : State} {frame : List Byte}

theorem exec_cver_of_nil (h : frameOperand s.cfg s.bus = .ok []) : exec .cver s = .next (s.respond (.err truncated)) := by
  change s.answer (cverAnswer s.cfg s.bus) = _
  rw [cverAnswer, h]
  rfl

theorem exec_cver_of_ne_nil (h : frameOperand s.cfg s.bus = .ok frame) (hne : frame ≠ []) :
    exec .cver s = .next (s.respond (.ok (.verdict (verifyFrame frame) (xorFold frame.dropLast)))) := by
  have hempty : frame.isEmpty = false := by simpa using hne
  change s.answer (cverAnswer s.cfg s.bus) = _
  simp only [cverAnswer, h, hempty, Bool.false_eq_true, if_false, State.answer_ok]

/-- R82, R85: CVER of a frame put on the buses. -/
theorem exec_cver_withFrame (hne : frame ≠ []) (h : frame.length ≤ 255) (hmax : frame.length ≤ s.cfg.nMax) :
    exec .cver (s.withFrame frame) =
      .next ((s.withFrame frame).respond (.ok (.verdict (xorFold frame == 0) (xorFold frame.dropLast)))) := by
  rw [exec_cver_of_ne_nil (frameOperand_withFrame h hmax) hne, verifyFrame_eq_xorFold hne]

/-- R85: a verdict is given on a frame of 1 to NMAX bytes only, and is that of its last byte against the others. -/
theorem of_exec_cver_verdict {v : Bool} {x : Byte} (h : exec .cver s = .next (s.respond (.ok (.verdict v x)))) :
    s.bus.len.toNat ≤ s.cfg.nMax ∧ v = verifyFrame (fitBytes s.bus.len.toNat s.bus.frame) ∧
    x = xorFold (fitBytes s.bus.len.toNat s.bus.frame).dropLast := by
  have ha : cverAnswer s.cfg s.bus = .ok (.verdict v x) := State.ok_of_answer h rfl
  obtain ⟨hle, hop⟩ | ⟨-, hop⟩ := frameOperand_cases s.cfg s.bus
  · simp only [cverAnswer, hop] at ha
    split at ha <;> cases ha
    exact ⟨hle, rfl, rfl⟩
  · simp only [cverAnswer, hop] at ha
    cases ha

end

/-! ## Frames that DECF answers as StateSet (R124, R128) -/

/-- R124, R128: DECF answers StateSet for a frame that is classified so, within NMAX. -/
theorem classify_of_exec_decf_stateSet {s : State} {d : DecodedFrame}
    (h : exec .decf s = .next (s.respond (.ok (.decoded d)))) (hkind : d.kind = .stateSet) :
    ∃ p, classify s.cfg (fitBytes s.bus.len.toNat s.bus.frame) = .stateSet p := by
  rw [exec_decf_eq_runFrame] at h
  have ha := State.ok_of_answer h rfl
  split at ha
  · cases ha
  obtain ⟨hk, -, -, -, ⟨p, hp, -⟩ | ⟨⟨i, hi⟩ | ⟨c, hc⟩, -⟩⟩ := decodeFrame_ok (decfAnswer_eq_ok_iff.mp ha)
  · exact ⟨p, hp⟩
  · rw [hkind, hi] at hk; cases hk
  · rw [hkind, hc] at hk; cases hk

/-- R39, R124: a frame of at least four bytes with a direction pair is its header and what follows. -/
theorem exists_eq_headedFrame {frame : List Byte} (hlen : 4 ≤ frame.length) (hmark : byteAt frame 0 = 0xBB)
    (hpair : isDirectionPair (byteAt frame 1) (byteAt frame 2)) :
    ∃ dir, frame = headedFrame dir (byteAt frame 3) (frame.drop 4) := by
  match frame, hlen with
  | m :: b1 :: b2 :: cmd :: rest, _ =>
    change m = 0xBB at hmark
    change isDirectionPair b1 b2 at hpair
    subst hmark
    obtain ⟨rfl, rfl⟩ | ⟨rfl, rfl⟩ := hpair
    · exact ⟨.a2u, rfl⟩
    · exact ⟨.u2a, rfl⟩

/-- R39: the last byte of a frame stands after the header and the bytes before it. -/
theorem headedFrame_concat (dir : Direction) (cmd : Byte) (p : List Byte) (x : Byte) :
    headedFrame dir cmd (p ++ [x]) = headedFrame dir cmd p ++ [x] := by cases dir <;> rfl

/-- R124: a state-set frame is a header, a payload of P_LEN bytes and a last byte. -/
theorem classify_stateSet_headed {c : Config} {frame p : List Byte} (h : classify c frame = .stateSet p) :
    p.length = c.pLen ∧ ∃ dir b, frame = headedFrame dir 0x03 p ++ [b] := by
  obtain ⟨hlen, hp, hplen, hmark, hpair, hcmd⟩ := classify_stateSet h
  rw [Config.nSs] at hlen
  obtain ⟨dir, hframe⟩ := exists_eq_headedFrame (by omega) hmark hpair
  obtain ⟨b, hb⟩ : ∃ b, (frame.drop 4).drop c.pLen = [b] :=
    List.length_eq_one_iff.mp (by rw [List.length_drop, List.length_drop]; omega)
  have hrest : frame.drop 4 = p ++ [b] := by rw [hp, ← hb, List.take_append_drop]
  rw [hcmd, hrest, headedFrame_concat] at hframe
  exact ⟨hplen, dir, b, hframe⟩

/-- R128: DECF of a state-set frame on the buses, the verdict read off its last byte. -/
theorem runFrame_stateset_concat {s : State} (hlegal : s.cfg.Legal) (dir : Direction) {p : List Byte}
    (h : p.length = s.cfg.pLen) (x : Byte) :
    runFrame (headedFrame dir 0x03 p ++ [x]) s = .next (s.respond (.ok (.decoded
      ⟨.stateSet, 0x03, dir, xorFold (headedFrame dir 0x03 p) == x, true, (decodeState s.cfg p).dsi,
        (decodeState s.cfg p).padmap⟩))) := by
  rw [← headedFrame_concat, runFrame_stateset hlegal dir (by simp [h]),
    ← verifyFrame_eq_xorFold (headedFrame_ne_nil dir 0x03 _), headedFrame_concat, verifyFrame_append, List.take_left' h]

/-! ## The obligations -/

/-- Settles O25: the fold of the frame operand is the running XOR over the bus. -/
theorem csumFoldsXor : Obligations.CsumFoldsXor := by
  refine ⟨by decide, fun s => ⟨fun hle => ?sum, fun hlt => ?tooLong⟩⟩
  case sum =>
    change s.answer (csumAnswer s.cfg s.bus) = _
    rw [csumAnswer, frameOperand_of_le hle, busXor_eq_xorFold]
    rfl
  case tooLong => exact exec_of_frameOperand_error (by simp) (frameOperand_of_lt hlt)

/-- Settles O26: a frame operand with a byte is the bytes before the last and the last. -/
theorem cverComparesLastByte : Obligations.CverComparesLastByte := by
  refine ⟨by decide, fun s => ⟨fun hlt => ?tooLong, fun hle hzero => ?empty, fun hle hpos => ?verdict⟩⟩
  case tooLong => exact exec_of_frameOperand_error (by simp) (frameOperand_of_lt hlt)
  case empty =>
    refine exec_cver_of_nil ?_
    rw [frameOperand_of_le hle, hzero, fitBytes_zero]
  case verdict =>
    have hop := frameOperand_of_le hle
    rw [← Nat.sub_add_cancel hpos, fitBytes_succ] at hop
    rw [exec_cver_of_ne_nil hop (by simp), verifyFrame_append, List.dropLast_concat, busXor_eq_xorFold]

/-- Settles O27: a frame verifies when its bytes XOR to 0; one flipped bit makes that the bit, two at one position cancel. -/
theorem flippedBitFailsToVerify : Obligations.FlippedBitFailsToVerify := by
  intro s i j k x hj hi h frame flip
  obtain ⟨hmax, hvalid, rfl⟩ := of_exec_cver_verdict h
  change true = verifyFrame frame at hvalid
  have hlen : frame.length = s.bus.len.toNat := fitBytes_length _ _
  have h255 : s.bus.len.toNat ≤ 255 := Nat.le_of_lt_succ s.bus.len.isLt
  have hzero : xorFold frame = 0 := by
    rw [verifyFrame_eq_xorFold (List.ne_nil_of_length_pos (by omega))] at hvalid
    exact beq_iff_eq.mp hvalid.symm
  have hcver {l : List Byte} (hl : l.length = frame.length) : exec .cver (s.withFrame l) =
      .next ((s.withFrame l).respond (.ok (.verdict (xorFold l == 0) (xorFold l.dropLast)))) :=
    exec_cver_withFrame (List.ne_nil_of_length_pos (by omega)) (by omega) (by omega)
  refine ⟨⟨xorFold (flip i frame).dropLast, ?oneBit⟩, fun hik hk => ?twoBits⟩
  case oneBit =>
    have hsum : (xorFold (flip i frame) == 0) = false := by
      rw [xorFold_modify_xor _ (by omega), hzero]
      simpa using one_shiftLeft_ne_zero hj
    rw [hcver (by simp [flip]), hsum]
  case twoBits =>
    have hsum : xorFold (flip i (flip k frame)) = 0 := by
      rw [xorFold_modify_xor_twice _ (by omega) (by omega), hzero]
    have hrest : xorFold (flip i (flip k frame)).dropLast = xorFold frame.dropLast := by
      rw [dropLast_modify, dropLast_modify, xorFold_modify_xor_twice _ (by simp; omega) (by simp; omega)]
    rw [hcver (by simp [flip]), hsum, hrest]
    rfl

/-- Settles O42: a state-set frame stays one with any last byte, and only the verdict reads that byte. -/
theorem checksumOnlyAffectsVerdict : Obligations.ChecksumOnlyAffectsVerdict := by
  intro s d x hlegal h hkind s'
  obtain ⟨p, hclass⟩ := classify_of_exec_decf_stateSet h hkind
  obtain ⟨hp, dir, b, hframe⟩ := classify_stateSet_headed hclass
  have hlen : s.bus.len.toNat = s.cfg.pLen + 4 + 1 := by
    simpa [hp] using congrArg List.length hframe
  have hinit : fitBytes (s.bus.len.toNat - 1) s.bus.frame = headedFrame dir 0x03 p := by
    rw [hlen, fitBytes_succ] at hframe
    rw [hlen]
    exact (List.append_inj' hframe rfl).1
  have hset : (fitBytes s.bus.len.toNat s.bus.frame).set (s.bus.len.toNat - 1) x = headedFrame dir 0x03 p ++ [x] := by
    rw [hframe, hlen, List.set_append_right _ _ (by simp [hp])]
    simp [hp]
  have hbus : fitBytes s'.bus.len.toNat s'.bus.frame = headedFrame dir 0x03 p ++ [x] := by
    have h255 : s.bus.len.toNat ≤ 255 := Nat.le_of_lt_succ s.bus.len.isLt
    rw [← hset]
    exact fitBytes_withFrame (by simpa using h255)
  have hd : exec .decf s = _ := (exec_decf_eq_runFrame s).trans (hframe ▸ runFrame_stateset_concat hlegal dir hp b)
  cases State.ok_of_answer (a := .ok _) (hd.symm.trans h) rfl
  rw [exec_decf_eq_runFrame, hbus, runFrame_stateset_concat (s := s') hlegal dir hp, busXor_eq_xorFold, hinit]
  rfl

end Sys2Proof.Machine
end

section
/-! PROOFS. Which payload bits the masks of the Field Table control (R96), and the reserved-bit map, which flags the others
(ob. O38). -/

namespace Sys2Proof

theorem byte_ne_zero_iff {x : Byte} : x ≠ 0 ↔ ∃ b, b < 8 ∧ x.getLsbD b = true := by
  rw [← not_iff_not, not_not]
  refine ⟨by rintro rfl; simp, fun h => BitVec.eq_of_getLsbD_eq fun b hb => ?_⟩
  simpa using fun hx => h ⟨b, hb, hx⟩

theorem getLsbD_foldl_or {α : Type} (g : α → Byte) (l : List α) (x : Byte) (b : Nat) :
    (l.foldl (fun m a => m ||| g a) x).getLsbD b = (x.getLsbD b || l.any fun a => (g a).getLsbD b) := by
  induction l generalizing x with
  | nil => simp
  | cons a l ih => rw [List.foldl_cons, ih, BitVec.getLsbD_or, List.any_cons, Bool.or_assoc]

/-- A bit of the OR of bytes is set when one of them has it. -/
theorem getLsbD_foldl_or_zero {α : Type} (g : α → Byte) (l : List α) (b : Nat) :
    (l.foldl (fun m a => m ||| g a) 0).getLsbD b = true ↔ ∃ a ∈ l, (g a).getLsbD b = true := by
  simp [getLsbD_foldl_or]

/-- R96: one of the masks, each with its payload offset, controls bit `b` of payload byte `i`. -/
def Controls (claims : List (Nat × Byte)) (i b : Nat) : Prop := ∃ a ∈ claims, a.1 = i ∧ a.2.getLsbD b = true

theorem not_controls_iff {claims : List (Nat × Byte)} {i b : Nat} :
    ¬ Controls claims i b ↔ ∀ a ∈ claims, a.1 = i → a.2.getLsbD b = false := by
  simp only [Controls, not_exists, not_and, Bool.not_eq_true]

/-- R114: CTRL_MASK has the bits that some mask of the table controls. -/
theorem getLsbD_ctrlMask {ft : FieldTable} {i b : Nat} :
    (Machine.ctrlMask ft i).getLsbD b = true ↔ Controls ft.claims i b := by
  have hfold : Machine.ctrlMask ft i = ft.claims.foldl (fun m a => m ||| if a.1 = i then a.2 else 0) 0 :=
    List.foldl_ext _ _ _ fun m a _ => by split <;> simp
  have hbit (a : Nat × Byte) : (if a.1 = i then a.2 else 0).getLsbD b = true ↔ a.1 = i ∧ a.2.getLsbD b = true := by
    split <;> simp [*]
  rw [hfold, getLsbD_foldl_or_zero]
  exact exists_congr fun a => and_congr_right fun _ => hbit a

/-- R114: a byte has reserved bits set when it has a bit set that no mask controls. -/
theorem reserved_ne_zero_iff {ft : FieldTable} {x : Byte} {i : Nat} :
    x &&& ~~~Machine.ctrlMask ft i ≠ 0 ↔ ∃ b, b < 8 ∧ x.getLsbD b = true ∧ ¬ Controls ft.claims i b := by
  rw [byte_ne_zero_iff]
  refine exists_congr fun b => and_congr_right fun hb => ?_
  rw [BitVec.getLsbD_and, BitVec.getLsbD_not, ← getLsbD_ctrlMask]
  simp [hb]

end Sys2Proof

namespace Sys2Proof.Machine

open Sys2Proof

@[simp] theorem padMap_length (ft : FieldTable) (pLen : Nat) (p : List Byte) : (padMap ft pLen p).length = pLen := by
  simp [padMap]

theorem getElem?_padMap (ft : FieldTable) (p : List Byte) {pLen i : Nat} (h : i < pLen) :
    (padMap ft pLen p)[i]? = some (byteAt p i &&& ~~~ctrlMask ft i != 0) := by simp [padMap, h]

/-- Settles O38: PADMAP's byte test, bit by bit. -/
theorem padmapFlagsReservedBits : Obligations.PadmapFlagsReservedBits := by
  intro s
  refine ⟨_, rfl, fun i hi => ?_⟩
  have hbyte : byteAt (payloadOperand s.cfg s.bus) i = byteAt s.bus.payload i := byteAt_fitBytes _ _ _ hi
  rw [decodeState, getElem?_padMap _ _ hi, hbyte, Option.some_inj, bne_iff_ne, reserved_ne_zero_iff]
  exact exists_congr fun b => and_congr_right fun _ => and_congr_right fun _ => not_controls_iff

end Sys2Proof.Machine
end

section
/-! PROOFS. FUNPACK of each field (ob. O30 to O33): its lookup among the codes of the Field Table, which of the codes decides,
and the bits of the payload it reads. -/

namespace Sys2Proof

/-- Two words side by side, as a number. -/
theorem toNat_append_eq {m n : Nat} (x : BitVec m) (y : BitVec n) : (x ++ y).toNat = 2 ^ n * x.toNat + y.toNat := by
  rw [BitVec.toNat_append, ← Nat.shiftLeft_add_eq_or_of_lt y.isLt, Nat.shiftLeft_eq, mul_comm]

/-- R9: the result of `pext` has popcount(m) bits. -/
theorem pext_toNat_lt (v m : Byte) : (pext v m).toNat < 2 ^ popcount m := by
  apply Nat.lt_pow_two_of_testBit
  intro k hk
  exact getLsbD_pext_of_le v (maskRank_eight m ▸ hk)

theorem idxOf?_getElem_of_nodup {α : Type} [BEq α] [LawfulBEq α] {l : List α} (h : l.Nodup) {i : Nat}
    (hi : i < l.length) : l.idxOf? l[i] = some i := by
  rw [List.idxOf?_eq_some_iff]
  refine ⟨hi, rfl, fun j hj heq => ?_⟩
  have := (h.getElem_inj_iff (hi := by omega)).mp heq
  omega

/-- WF1 to WF8 (R95 to R102), one by one. -/
theorem FieldTable.legal_iff {ft : FieldTable} {pLen : Nat} :
    ft.Legal pLen ↔ ft.Placed pLen ∧ ft.Disjoint ∧ ft.BoolsOneBit ∧ ft.sleepMode.Legal ∧ ft.mode.Legal ∧
      ft.windSpeed.Legal ∧ ft.verticalVane.Legal ∧ ft.horizontalVane.Legal ∧ ft.FlowClasses ∧
      ft.temperature.offI ≠ ft.temperature.offF ∧ ft.SharedByte := by
  simp only [FieldTable.Legal, FieldTable.legal, Bool.and_eq_true, decide_eq_true_eq, and_assoc]

/-- R6: the table of a legal configuration is legal. -/
theorem Config.Legal.ft {c : Config} (h : c.Legal) : c.ft.Legal c.pLen := by
  obtain ⟨-, -, -, -, -, hft⟩ := h
  exact hft

end Sys2Proof

namespace Sys2Proof.Machine

open Sys2Proof

/-! ## Which payload bytes a field reads -/

/-- R109 to R113: a field is unpacked from the bytes at the offsets of the table. -/
theorem unpackField_congr {ft : FieldTable} {p q : List Byte} (h : ∀ a ∈ ft.claims, byteAt p a.1 = byteAt q a.1)
    (f : Field) : unpackField ft p f = unpackField ft q f := by
  simp only [FieldTable.claims, List.forall_mem_cons] at h
  cases f with
  | power | display | buzzer | eco | heater8Degree | health => simp only [unpackField, unpackBool, h]
  | sleepMode | mode => simp only [unpackField, unpackEnum, h]
  | windSpeed => simp only [unpackField, unpackWind, h]
  | verticalVane | horizontalVane => simp only [unpackField, unpackVane, h]
  | targetTemperature => simp only [unpackField, unpackTemp, h]

section
variable {s : State}

/-- R95, R116: in a legal configuration every offset lies in the payload, so FUNPACK reads the bus itself. -/
theorem exec_funpack (hlegal : s.cfg.Legal) {fid : BitVec 4} {f : Field} (hf : fieldOf fid = some f) :
    exec (.funpack fid) s = .next (s.respond (.ok (.field (unpackField s.cfg.ft s.bus.payload f)))) := by
  obtain ⟨hplaced, -⟩ := FieldTable.legal_iff.mp hlegal.ft
  have hread : unpackField s.cfg.ft (payloadOperand s.cfg s.bus) f = unpackField s.cfg.ft s.bus.payload f :=
    unpackField_congr (fun a ha => byteAt_fitBytes _ _ _ (hplaced a ha).1) f
  simp only [exec, execFunpack, hf, hread, State.answer_ok]

/-- R58: the field ids 12 to 15 name no field. -/
theorem fieldOf_eq_none : ∀ fid : BitVec 4, 12 ≤ fid.toNat → fieldOf fid = none := by decide

end

/-! ## Bool fields (R109) -/

theorem unpackBool_eq (e : BoolEntry) (p : List Byte) :
    unpackBool e p = if byteAt p e.off &&& e.mask = 0 then ⟨false, 0, 0, false⟩ else ⟨false, 1, 1, false⟩ := by
  by_cases h : byteAt p e.off &&& e.mask = 0
  · rw [if_pos h, unpackBool, h]; rfl
  · rw [if_neg h, unpackBool, bne_iff_ne.mpr h]; rfl

/-- R58, R88: the field ids 0 to 5 name the bool fields, in the order of their entries. -/
theorem unpackField_boolEntries {ft : FieldTable} {k : Nat} {e : BoolEntry} (h : (boolEntries ft)[k]? = some e)
    (p : List Byte) : ∃ f, fieldOf (BitVec.ofNat 4 k) = some f ∧ unpackField ft p f = unpackBool e p := by
  match k, h with
  | 0, rfl => exact ⟨.power, rfl, rfl⟩
  | 1, rfl => exact ⟨.display, rfl, rfl⟩
  | 2, rfl => exact ⟨.buzzer, rfl, rfl⟩
  | 3, rfl => exact ⟨.eco, rfl, rfl⟩
  | 4, rfl => exact ⟨.heater8Degree, rfl, rfl⟩
  | 5, rfl => exact ⟨.health, rfl, rfl⟩

/-- Settles O30: each bool field by its entry, the other ids by R58. -/
theorem funpackReadsBools : Obligations.FunpackReadsBools := by
  intro s hlegal
  constructor
  case left =>
    intro k e he b
    obtain ⟨f, hf, hunpack⟩ := unpackField_boolEntries he s.bus.payload
    rw [exec_funpack hlegal hf, hunpack, unpackBool_eq]
    simp only [b]
    split <;> rfl
  case right =>
    intro fid hfid
    simp [exec, execFunpack, fieldOf_eq_none fid hfid, badOperand]

/-! ## Enum fields and wind speed (R110, R111) -/

section
variable {w n : Nat} {codes : Vector (BitVec w) n} {unassigned : List (BitVec w)} {dflt raw : Byte} {r : BitVec w}

theorem lookupCode_raw {l : List (BitVec w)} : (lookupCode l unassigned dflt r raw).raw = raw := by
  unfold lookupCode; split <;> [rfl; (split <;> rfl)]

theorem lookupCode_flow {l : List (BitVec w)} : (lookupCode l unassigned dflt r raw).flow = false := by
  unfold lookupCode; split <;> [rfl; (split <;> rfl)]

/-- R98: no two variants have the same code, so the first match is the variant. -/
theorem lookupCode_of_variant (hnodup : codes.toList.Nodup) {v : Fin n} (h : codes[v] = r) :
    lookupCode codes.toList unassigned dflt r raw = ⟨false, BitVec.ofNat 8 v, raw, false⟩ := by
  have hv : (v : Nat) < codes.toList.length := by simp
  have hidx : codes.toList.idxOf? r = some (v : Nat) := by
    rw [← h, ← idxOf?_getElem_of_nodup hnodup hv]
    simp
  rw [lookupCode, hidx]

theorem lookupCode_of_not_mem {l : List (BitVec w)} (h : r ∉ l) : lookupCode l unassigned dflt r raw =
    if r ∈ unassigned then ⟨false, dflt, raw, false⟩ else ⟨true, 0, raw, false⟩ := by
  rw [lookupCode, List.idxOf?_eq_none_iff.mpr h]

/-- R110: the lookup that the unpacker does is the one that the rule says. -/
theorem isLookup_lookupCode (hnodup : codes.toList.Nodup) (hn : n ≤ 256) {d : Nat} (hd : d < 256) :
    IsLookup codes unassigned d r raw (lookupCode codes.toList unassigned (BitVec.ofNat 8 d) r raw) := by
  refine ⟨lookupCode_raw, lookupCode_flow, fun v hv => ?variant, fun hr hu => ?dflt, fun hr hu => ?unrec⟩
  case variant =>
    rw [lookupCode_of_variant hnodup hv]
    exact ⟨rfl, Nat.mod_eq_of_lt (v.isLt.trans_le hn)⟩
  case dflt =>
    rw [lookupCode_of_not_mem hr, if_pos hu]
    exact ⟨rfl, Nat.mod_eq_of_lt hd⟩
  case unrec =>
    rw [lookupCode_of_not_mem hr, if_neg hu]
    exact ⟨rfl, rfl⟩

end

theorem isLookup_unpackEnum {n : Nat} {e : EnumEntry n} (he : e.Legal) (hn : n ≤ 256) (d : Fin n) (p : List Byte) :
    IsLookup e.enc e.unassigned d (pext (byteAt p e.off) e.mask) (pext (byteAt p e.off) e.mask) (unpackEnum e d p) :=
  isLookup_lookupCode he.1 hn (d.isLt.trans_le hn)

/-- R91: `{upper2, lower3}` as a number. -/
def windSelector (e : WindEntry) (p : List Byte) : Nat :=
  8 * (pext (byteAt p e.offU) e.maskU).toNat + (pext (byteAt p e.offL) e.maskL).toNat

/-- R99: the masks of a legal wind entry give exactly the two and the three bits of the selector. -/
theorem isLookup_unpackWind {e : WindEntry} (he : e.Legal) (p : List Byte) :
    IsLookup e.enc e.unassigned 0 (BitVec.ofNat 5 (windSelector e p)) (BitVec.ofNat 8 (windSelector e p))
      (unpackWind e p) := by
  obtain ⟨hnodup, -, hmaskU, hmaskL, -⟩ := he
  have hupper : (pext (byteAt p e.offU) e.maskU).toNat < 2 ^ 2 :=
    (pext_toNat_lt _ _).trans_eq (congrArg _ hmaskU)
  have hlower : (pext (byteAt p e.offL) e.maskL).toNat < 2 ^ 3 :=
    (pext_toNat_lt _ _).trans_eq (congrArg _ hmaskL)
  have hsel : (pext (byteAt p e.offU) e.maskU).setWidth 2 ++ (pext (byteAt p e.offL) e.maskL).setWidth 3 =
      BitVec.ofNat 5 (windSelector e p) := by
    apply BitVec.eq_of_toNat_eq
    rw [toNat_append_eq, BitVec.toNat_setWidth, BitVec.toNat_setWidth, BitVec.toNat_ofNat, windSelector]
    omega
  have hraw : (BitVec.ofNat 5 (windSelector e p)).setWidth 8 = BitVec.ofNat 8 (windSelector e p) := by
    apply BitVec.eq_of_toNat_eq
    rw [BitVec.toNat_setWidth, BitVec.toNat_ofNat, BitVec.toNat_ofNat, windSelector]
    omega
  simp only [unpackWind, hsel, hraw]
  exact isLookup_lookupCode hnodup (by decide) (by decide)

/-- Settles O31: each field's lookup under the legality of its entry. -/
theorem funpackLooksUpEnums : Obligations.FunpackLooksUpEnums := by
  intro s hlegal ft p sleepBits modeBits sel
  obtain ⟨-, -, -, hsleep, hmode, hwind, -⟩ := FieldTable.legal_iff.mp hlegal.ft
  exact ⟨⟨_, exec_funpack hlegal rfl, isLookup_unpackEnum hsleep (by decide) SleepMode.off.port p⟩,
    ⟨_, exec_funpack hlegal rfl, isLookup_unpackEnum hmode (by decide) Mode.auto.port p⟩,
    ⟨_, exec_funpack hlegal rfl, isLookup_unpackWind hwind p⟩⟩

/-! ## Vanes (R112) -/

/-- R112: the enum bits that a vane's payload bytes hold. -/
def vaneCode {n : Nat} (e : VaneEntry n) (p : List Byte) : Byte := pext (byteAt p e.offE) e.maskE

/-- R112: the flow bit that a vane's payload bytes hold. -/
def vaneFlow {n : Nat} (e : VaneEntry n) (p : List Byte) : Bool := byteAt p e.offF &&& e.bitF != 0

section
variable {n : Nat} {e : VaneEntry n} {p : List Byte}

@[simp] theorem VaneEntry.pairs_length : e.pairs.length = n := by simp [VaneEntry.pairs]

theorem VaneEntry.getElem_pairs (v : Fin n) (hv : (v : Nat) < e.pairs.length) :
    e.pairs[(v : Nat)] = (e.enc[v], e.flow[v]) := by
  simp [VaneEntry.pairs]

theorem VaneEntry.not_mem_pairs {r : Byte} {f : Bool} (h : ∀ v : Fin n, ¬(e.enc[v] = r ∧ e.flow[v] = f)) :
    (r, f) ∉ e.pairs := by
  intro hmem
  obtain ⟨v, hv, heq⟩ := List.getElem_of_mem hmem
  have hvn : v < n := by simpa using hv
  rw [VaneEntry.getElem_pairs ⟨v, hvn⟩ hv, Prod.mk.injEq] at heq
  exact h _ heq

/-- R100: no two variants have the same pair, so the first match is the variant. -/
theorem unpackVane_of_variant (hnodup : e.pairs.Nodup) {v : Fin n} (henc : e.enc[v] = vaneCode e p)
    (hflow : e.flow[v] = vaneFlow e p) :
    unpackVane e p = ⟨false, BitVec.ofNat 8 v, vaneCode e p, vaneFlow e p⟩ := by
  have hv : (v : Nat) < e.pairs.length := by simp
  have hidx : e.pairs.idxOf? (vaneCode e p, vaneFlow e p) = some (v : Nat) := by
    rw [← henc, ← hflow, ← VaneEntry.getElem_pairs v hv, idxOf?_getElem_of_nodup hnodup hv]
  unfold vaneCode vaneFlow at hidx
  simp only [unpackVane, hidx]
  rfl

theorem unpackVane_of_not_mem (h : (vaneCode e p, vaneFlow e p) ∉ e.pairs) : unpackVane e p =
    if vaneCode e p ∈ e.unassigned ∧ vaneFlow e p = e.autoFlow then ⟨false, 0, vaneCode e p, vaneFlow e p⟩
    else ⟨true, 0, vaneCode e p, vaneFlow e p⟩ := by
  have hidx := List.idxOf?_eq_none_iff.mpr h
  unfold vaneCode vaneFlow at hidx
  simp only [unpackVane, hidx]
  rfl

theorem unpackVane_raw_flow : (unpackVane e p).raw = vaneCode e p ∧ (unpackVane e p).flow = vaneFlow e p := by
  unfold unpackVane; dsimp only; split <;> [exact ⟨rfl, rfl⟩; (split <;> exact ⟨rfl, rfl⟩)]

/-- R112: the lookup that the unpacker does is the one that the rule says. -/
theorem isVaneLookup_unpackVane (he : e.Legal) (hn : n ≤ 256) :
    IsVaneLookup e (vaneCode e p) (vaneFlow e p) (unpackVane e p) := by
  obtain ⟨-, -, hnodup, -⟩ := he
  obtain ⟨hraw, hflow⟩ := unpackVane_raw_flow (e := e) (p := p)
  refine ⟨hraw, hflow, fun v henc hflow => ?variant, fun hno hu ha => ?auto, fun hno hu => ?unrec⟩
  case variant =>
    rw [unpackVane_of_variant hnodup henc hflow]
    exact ⟨rfl, Nat.mod_eq_of_lt (v.isLt.trans_le hn)⟩
  case auto =>
    rw [unpackVane_of_not_mem (VaneEntry.not_mem_pairs hno), if_pos ⟨hu, ha⟩]
    exact ⟨rfl, rfl⟩
  case unrec =>
    rw [unpackVane_of_not_mem (VaneEntry.not_mem_pairs hno), if_neg hu]
    exact ⟨rfl, rfl⟩

end

/-- Settles O32: each vane's lookup under the legality of its entry. -/
theorem funpackLooksUpVanes : Obligations.FunpackLooksUpVanes := by
  intro s hlegal v h p
  obtain ⟨-, -, -, -, -, -, hv, hh, -⟩ := FieldTable.legal_iff.mp hlegal.ft
  exact ⟨⟨_, exec_funpack hlegal rfl, isVaneLookup_unpackVane hv (by decide)⟩,
    ⟨_, exec_funpack hlegal rfl, isVaneLookup_unpackVane hh (by decide)⟩⟩

/-! ## The temperature (R113) -/

theorem nibbleAt_toNat (pos : NibblePos) (b : Byte) :
    (nibbleAt pos b).toNat = if pos = .lo then b.toNat % 16 else b.toNat / 16 := by
  cases pos with
  | lo => exact nibFrac_toNat b
  | hi => exact nibInt_toNat b

/-- R113: TDEC of the two nibbles, with its error as Unrecognized. -/
theorem unpackTemp_eq (e : TempEntry) (p : List Byte) :
    let tInt := (nibbleAt e.posI (byteAt p e.offI)).toNat
    let tFrac := (nibbleAt e.posF (byteAt p e.offF)).toNat
    unpackTemp e p =
      if tFrac % 4 = 0 then ⟨false, BitVec.ofNat 8 (4 * (31 - tInt) + tFrac / 4), BitVec.ofNat 8 (16 * tInt + tFrac), false⟩
      else ⟨true, 0, BitVec.ofNat 8 (16 * tInt + tFrac), false⟩ := by
  intro tInt tFrac
  have hraw : nibbleAt e.posI (byteAt p e.offI) ++ nibbleAt e.posF (byteAt p e.offF) =
      BitVec.ofNat 8 (16 * tInt + tFrac) := by
    apply BitVec.eq_of_toNat_eq
    rw [toNat_append_eq, BitVec.toNat_ofNat]
    omega
  unfold unpackTemp decodeTemp
  simp only [hraw, fracInTable_iff]
  by_cases h : tFrac % 4 = 0
  · rw [if_pos h, if_pos h]
  · rw [if_neg h, if_neg h]

/-- Settles O33: the nibbles in numbers. -/
theorem funpackReadsTemperature : Obligations.FunpackReadsTemperature := by
  intro s hlegal e nib tInt tFrac
  rw [exec_funpack hlegal rfl, unpackField, unpackTemp_eq, nibbleAt_toNat, nibbleAt_toNat]

end Sys2Proof.Machine
end

section
/-! PROOFS. FPACK of each field (ob. O29): the byte at each index of its pack, against the bits of the STATE word. -/

namespace Sys2Proof.Machine

open Sys2Proof

/-! ## The variant that a port code names (R59) -/

/-- R59, R61: where the port codes of a list of variants are their positions, a valid port code packs the variant whose code
it is. -/
theorem exists_packVariant {α : Type} {variants : List α} {port : α → Nat} {k : Nat}
    (hports : variants.map port = List.range variants.length) (h : (variants[k]?).isSome = true) :
    ∃ v, port v = k ∧ ∀ pack, packVariant variants[k]? pack = .ok (pack v) := by
  obtain ⟨v, hv⟩ := Option.isSome_iff_exists.mp h
  have hk : (variants.map port)[k]? = some (port v) := by simp [hv]
  rw [hports, List.getElem?_eq_some_iff] at hk
  obtain ⟨_, hk⟩ := hk
  exact ⟨v, by simpa using hk.symm, fun _ => by rw [hv]; rfl⟩

/-! ## The byte at each index of a pack (R104 to R108) -/

theorem getD_toList {α : Type} {n : Nat} (xs : Vector α n) (v : Fin n) (d : α) : xs.toList.getD v d = xs[v] := by
  simp [List.getD_eq_getElem?_getD]

section
variable {n pLen i : Nat} (hi : i < pLen)
include hi

theorem byteAt_orAt_zeroBytes (off : Nat) (b : Byte) :
    byteAt (orAt (zeroBytes pLen) off b) i = if i = off then b else 0 := by
  rw [byteAt_orAt _ _ _ _ (by simpa using hi), byteAt_zeroBytes]
  exact BitVec.zero_or

theorem byteAt_packBool (e : BoolEntry) (v : Bool) :
    byteAt (packBool e v (zeroBytes pLen)) i = if i = e.off ∧ v = true then e.mask else 0 := by
  cases v with
  | false => simp [packBool]
  | true => simp [packBool, byteAt_orAt_zeroBytes hi]

theorem byteAt_packEnum (e : EnumEntry n) (v : Fin n) :
    byteAt (packEnum e v (zeroBytes pLen)) i = if i = e.off then pdep (e.enc.toList.getD v 0) e.mask else 0 := by
  rw [packEnum, byteAt_orAt_zeroBytes hi, getD_toList]

/-- R106: `sel[4:3]` and `sel[2:0]` are the quotient and the remainder of the selector by 8. -/
theorem byteAt_packWind (e : WindEntry) (v : Fin 8) :
    let sel := (e.enc.toList.getD v 0).toNat
    byteAt (packWind e v (zeroBytes pLen)) i =
      (if i = e.offU then pdep (BitVec.ofNat 8 (sel / 8)) e.maskU else 0) |||
      (if i = e.offL then pdep (BitVec.ofNat 8 (sel % 8)) e.maskL else 0) := by
  intro sel
  have hsel : sel = (e.enc[v]).toNat := by rw [← getD_toList]
  have hupper : ((e.enc[v]).extractLsb' 3 2).setWidth 8 = BitVec.ofNat 8 (sel / 8) := by
    apply BitVec.eq_of_toNat_eq
    rw [BitVec.toNat_setWidth, BitVec.extractLsb'_toNat, BitVec.toNat_ofNat, Nat.shiftRight_eq_div_pow, hsel]
    omega
  have hlower : ((e.enc[v]).extractLsb' 0 3).setWidth 8 = BitVec.ofNat 8 (sel % 8) := by
    apply BitVec.eq_of_toNat_eq
    rw [BitVec.toNat_setWidth, BitVec.extractLsb'_toNat, BitVec.toNat_ofNat, Nat.shiftRight_zero, hsel]
  rw [packWind, hupper, hlower, byteAt_orAt _ _ _ _ (by simpa using hi), byteAt_orAt_zeroBytes hi]

theorem byteAt_packVane (e : VaneEntry n) (v : Fin n) :
    byteAt (packVane e v (zeroBytes pLen)) i =
      (if i = e.offE then pdep (e.enc.toList.getD v 0) e.maskE else 0) |||
      (if i = e.offF ∧ e.flow.toList.getD v false = true then e.bitF else 0) := by
  rw [getD_toList, getD_toList]
  cases hflow : e.flow[v] with
  | false => simp [packVane, hflow, byteAt_orAt_zeroBytes hi]
  | true => simp [packVane, hflow, byteAt_orAt_zeroBytes hi, byteAt_orAt, hi]

theorem byteAt_packTemp (e : TempEntry) (tInt tFrac : BitVec 4) :
    byteAt (packTemp e tInt tFrac (zeroBytes pLen)) i =
      (if i = e.offI then placeNibble e.posI tInt else 0) ||| (if i = e.offF then placeNibble e.posF tFrac else 0) := by
  rw [packTemp, byteAt_orAt _ _ _ _ (by simpa using hi), byteAt_orAt_zeroBytes hi]

end

/-! ## The nibbles of the temperature (R74, R93) -/

theorem placeNibble_ofNat (pos : NibblePos) {x : Nat} (hx : x < 16) :
    placeNibble pos (BitVec.ofNat 4 x) = BitVec.ofNat 8 (if pos = .lo then x else 16 * x) := by
  apply BitVec.eq_of_toNat_eq
  cases pos with
  | lo =>
    simp only [placeNibble, toNat_append_eq, BitVec.toNat_ofNat, if_true]
    omega
  | hi =>
    simp only [placeNibble, toNat_append_eq, BitVec.toNat_ofNat, reduceCtorEq, if_false]
    omega

/-- R74: the nibbles of an accepted temperature with `q` quarter degrees. -/
theorem encodeTemp_of_inRange {fracBits q : Nat} {temp : BitVec 16} (h : tempInRange fracBits temp = true)
    (hq : quantizeTemp fracBits temp = q) (hhigh : q ≤ 124) :
    encodeTemp fracBits temp = .ok (BitVec.ofNat 4 (31 - q / 4), BitVec.ofNat 4 (4 * (q % 4))) := by
  have hint : ((31 : ℕ) : Int) - (q : Int) >>> (2 : Int) = (31 - q / 4 : ℕ) := by
    rw [natCast_shiftRight_two]; omega
  have hfrac : (4 : Int) * (q % 4) = (4 * (q % 4) : ℕ) := by push_cast; rfl
  simp only [encodeTemp, h, hq, if_true, hint, hfrac, BitVec.ofInt_natCast]

/-! ## The pack of one field (R115) -/

section
variable {c : Config} {st : Word} {temp : BitVec 16}

/-- R108: the pack of a temperature with `q` quarter degrees, by its two nibbles. -/
theorem packedByte_targetTemperature {q : Nat} (hq : quantizeTemp c.fracBits temp = q) (hlow : 64 ≤ q) (i : Nat) :
    packedByte c st temp .targetTemperature i =
      (if i = c.ft.temperature.offI then placeNibble c.ft.temperature.posI (BitVec.ofNat 4 (31 - q / 4)) else 0) |||
      (if i = c.ft.temperature.offF then placeNibble c.ft.temperature.posF (BitVec.ofNat 4 (4 * (q % 4))) else 0) := by
  rw [placeNibble_ofNat _ (by omega), placeNibble_ofNat _ (by omega)]
  simp only [packedByte, hq, Int.toNat_natCast]

/-- R115: a field packs where STATE is valid for it and, for the temperature, TEMP is in range; its pack is the one that R104
to R108 give. -/
theorem packField_of_valid {f : Field} (hF : 2 ≤ c.fracBits) (hvalid : stateValidFor st f = true)
    (hrange : f = .targetTemperature → tempInRange c.fracBits temp = true) :
    ∃ p, packField c st temp f = .ok p ∧ p.length = c.pLen ∧ ∀ i, i < c.pLen → byteAt p i = packedByte c st temp f i := by
  unfold stateValidFor at hvalid
  obtain ⟨hclear, hvariant⟩ := Bool.and_eq_true_iff.mp hvalid
  simp only [packField, hclear, Bool.not_true, Bool.false_eq_true, if_false]
  cases f with
  | power | display | buzzer | eco | heater8Degree | health =>
    exact ⟨_, rfl, by simp, fun i hi => byteAt_packBool hi _ _⟩
  | sleepMode =>
    obtain ⟨v, hport, hpack⟩ := exists_packVariant (port := fun v : SleepMode => v.port) rfl hvariant
    exact ⟨_, hpack _, by simp, fun i hi => by rw [byteAt_packEnum hi, hport]; rfl⟩
  | mode =>
    obtain ⟨v, hport, hpack⟩ := exists_packVariant (port := fun v : Mode => v.port) rfl hvariant
    exact ⟨_, hpack _, by simp, fun i hi => by rw [byteAt_packEnum hi, hport]; rfl⟩
  | windSpeed =>
    obtain ⟨v, hport, hpack⟩ := exists_packVariant (port := fun v : WindSpeed => v.port) rfl hvariant
    exact ⟨_, hpack _, by simp, fun i hi => by rw [byteAt_packWind hi, hport]; rfl⟩
  | verticalVane =>
    obtain ⟨v, hport, hpack⟩ := exists_packVariant (port := fun v : VerticalVane => v.port) rfl hvariant
    exact ⟨_, hpack _, by simp, fun i hi => by rw [byteAt_packVane hi, hport]; rfl⟩
  | horizontalVane =>
    obtain ⟨v, hport, hpack⟩ := exists_packVariant (port := fun v : HorizontalVane => v.port) rfl hvariant
    exact ⟨_, hpack _, by simp, fun i hi => by rw [byteAt_packVane hi, hport]; rfl⟩
  | targetTemperature =>
    obtain ⟨q, hq, hlow, hhigh⟩ := exists_quarters_of_tempInRange hF (hrange rfl)
    rw [encodeTemp_of_inRange (hrange rfl) hq hhigh]
    exact ⟨_, rfl, by simp, fun i hi => by rw [byteAt_packTemp hi, packedByte_targetTemperature hq hlow]⟩

theorem packField_of_not_inRange (hclear : stateReservedClear st = true) (h : tempInRange c.fracBits temp = false) :
    packField c st temp .targetTemperature = .error outOfRange := by
  simp [packField, hclear, encodeTemp, h]

end

/-- Settles O29: the errors by the validity of the operands, the pack by its bytes. -/
theorem fpackPacksOneField : Obligations.FpackPacksOneField := by
  intro s fid
  have hdecode : ∀ fid : BitVec 4, decodeCmd (0x00000006 ||| fid.setWidth 32 <<< 8) = .ok (.fpack fid) := by decide
  refine ⟨hdecode fid, fun hfid => ?noField, fun f hf => ⟨fun hinvalid => ?invalid, fun hvalid hT hrange => ?range,
    fun hvalid hrange hF => ?packs⟩⟩
  case noField => simp [exec, execFpack, fieldOf_eq_none fid hfid, badOperand]
  case invalid => simp [exec, execFpack, hf, packField_of_invalid s.cfg s.bus.temp hinvalid, badOperand]
  case range =>
    subst hT
    obtain ⟨hclear, -⟩ := Bool.and_eq_true_iff.mp hvalid
    simp [exec, execFpack, hf, packField_of_not_inRange hclear hrange, outOfRange]
  case packs =>
    obtain ⟨p, hp, hlen, hbyte⟩ := packField_of_valid hF hvalid hrange
    exact ⟨p, by simp [exec, execFpack, hf, hp], hlen, hbyte⟩

end Sys2Proof.Machine
end

section
/-! PROOFS. DECS undoes ENCF (ob. O36). Each bit of an encoded payload is controlled by the masks of one field, so
under a field's own masks the payload is that field's pack; unpacking a field reads no other bits, and undoes its pack. -/

namespace Sys2Proof

/-! ## The masks of one field (R96) -/

/-- R96: the masks of the table that belong to one field, with their payload offsets. -/
def Field.claims (ft : FieldTable) : Field → List (Nat × Byte)
  | .power => [(ft.power.off, ft.power.mask)]
  | .display => [(ft.display.off, ft.display.mask)]
  | .buzzer => [(ft.buzzer.off, ft.buzzer.mask)]
  | .eco => [(ft.eco.off, ft.eco.mask)]
  | .heater8Degree => [(ft.heater8Degree.off, ft.heater8Degree.mask)]
  | .health => [(ft.health.off, ft.health.mask)]
  | .sleepMode => [(ft.sleepMode.off, ft.sleepMode.mask)]
  | .mode => [(ft.mode.off, ft.mode.mask)]
  | .windSpeed => [(ft.windSpeed.offU, ft.windSpeed.maskU), (ft.windSpeed.offL, ft.windSpeed.maskL)]
  | .verticalVane => [(ft.verticalVane.offE, ft.verticalVane.maskE), (ft.verticalVane.offF, ft.verticalVane.bitF)]
  | .horizontalVane =>
    [(ft.horizontalVane.offE, ft.horizontalVane.maskE), (ft.horizontalVane.offF, ft.horizontalVane.bitF)]
  | .targetTemperature =>
    [(ft.temperature.offI, ft.temperature.posI.mask), (ft.temperature.offF, ft.temperature.posF.mask)]

/-- R96 for two fields: at one offset their masks share no bit. -/
def Field.Apart (ft : FieldTable) (f g : Field) : Prop :=
  ∀ x ∈ f.claims ft, ∀ y ∈ g.claims ft, x.1 = y.1 → x.2 &&& y.2 = 0

section
variable {ft : FieldTable} {f g : Field} {i b : Nat}

/-- R88: the masks of the table are those of the twelve fields, in field-id order. -/
theorem FieldTable.claims_eq_flatMap : ft.claims = Machine.allFields.flatMap (Field.claims ft) := rfl

theorem FieldTable.mem_claims {a : Nat × Byte} (h : a ∈ f.claims ft) : a ∈ ft.claims :=
  List.mem_flatMap.mpr ⟨f, Machine.mem_allFields f, h⟩

theorem Controls.table (h : Controls (f.claims ft) i b) : Controls ft.claims i b := by
  obtain ⟨a, ha, hbit⟩ := h
  exact ⟨a, FieldTable.mem_claims ha, hbit⟩

/-- R96: no payload bit is controlled by two fields. -/
theorem Field.eq_of_controls (hdisjoint : ft.Disjoint) (hf : Controls (f.claims ft) i b)
    (hg : Controls (g.claims ft) i b) : f = g := by
  obtain ⟨a, ha, rfl, haBit⟩ := hf
  obtain ⟨a', ha', hoff, haBit'⟩ := hg
  have hsymm : Std.Symm (Field.Apart ft) :=
    ⟨fun f g h x hx y hy hxy => by rw [BitVec.and_comm]; exact h y hy x hx hxy.symm⟩
  have hapart : Machine.allFields.Pairwise (Field.Apart ft) := (List.pairwise_flatMap.mp hdisjoint).2
  by_contra hne
  have hzero := hapart.forall (Machine.mem_allFields f) (Machine.mem_allFields g) hne a ha a' ha' hoff.symm
  have hbit : (a.2 &&& a'.2).getLsbD b = true := by rw [BitVec.getLsbD_and, haBit, haBit']; rfl
  simp [hzero] at hbit

end

/-! ## A field's bits stay under its masks -/

@[simp] theorem pdep_and_mask (x m : Byte) : pdep x m &&& m = pdep x m := by
  apply BitVec.eq_of_getLsbD_eq
  intro b _
  rw [BitVec.getLsbD_and, getLsbD_pdep, Bool.and_right_comm, Bool.and_self]

/-- R9: `pext` reads the bits under its mask only. -/
theorem pext_and_mask (v m : Byte) : pext (v &&& m) m = pext v m := by
  apply pext_eq_of_getLsbD
  · intro i hm
    rw [getLsbD_pext_maskRank v hm, BitVec.getLsbD_and, hm, Bool.and_true]
  · exact fun k hk => getLsbD_pext_of_le v hk

/-- R9: a value that fits the mask is read back from the bits it was spread over. -/
theorem pext_of_and_eq_pdep {v m x : Byte} (h : v &&& m = pdep x m) (hx : x.toNat < 2 ^ popcount m) : pext v m = x := by
  rw [← pext_and_mask, h, pext_pdep (by rwa [maskRank_eight])]

/-- A byte under mask `m` at offset `off` sets only bits that the mask controls. -/
theorem controls_of_getLsbD_ite {claims : List (Nat × Byte)} {P : Prop} [Decidable P] {off i b : Nat} {v m : Byte}
    (hmem : (off, m) ∈ claims) (hP : P → i = off) (hv : v &&& m = v) (h : (if P then v else 0).getLsbD b = true) :
    Controls claims i b := by
  by_cases hp : P
  · rw [if_pos hp, ← hv, BitVec.getLsbD_and, Bool.and_eq_true] at h
    exact ⟨_, hmem, (hP hp).symm, h.2⟩
  · simp [hp] at h

end Sys2Proof

namespace Sys2Proof.Machine

open Sys2Proof

@[simp] theorem placeNibble_and_mask (pos : NibblePos) (x : BitVec 4) :
    placeNibble pos x &&& pos.mask = placeNibble pos x := by
  cases pos <;> revert x <;> decide

/-- R93: the nibble at a position is the one placed there, whatever the rest of the byte holds. -/
theorem nibbleAt_of_and_mask {pos : NibblePos} {b : Byte} {x : BitVec 4} (h : b &&& pos.mask = placeNibble pos x) :
    nibbleAt pos b = x := by
  have hmask : ∀ b : Byte, nibbleAt pos (b &&& pos.mask) = nibbleAt pos b := by cases pos <;> decide
  have hplace : ∀ x : BitVec 4, nibbleAt pos (placeNibble pos x) = x := by cases pos <;> decide
  rw [← hmask, h, hplace]

section
variable {c : Config} {st : Word} {temp : BitVec 16}

/-- R104 to R108: the pack of a field sets only bits that the field's masks control. -/
theorem controls_of_packedByte (hF : 2 ≤ c.fracBits) (hrange : tempInRange c.fracBits temp = true) {f : Field} {i b : Nat}
    (h : (packedByte c st temp f i).getLsbD b = true) : Controls (f.claims c.ft) i b := by
  cases f with
  | power | display | buzzer | eco | heater8Degree | health =>
    exact controls_of_getLsbD_ite List.mem_cons_self And.left BitVec.and_self h
  | sleepMode | mode => exact controls_of_getLsbD_ite List.mem_cons_self id (pdep_and_mask _ _) h
  | windSpeed =>
    obtain h | h := Bool.or_eq_true_iff.mp ((BitVec.getLsbD_or ..).symm.trans h)
    · exact controls_of_getLsbD_ite List.mem_cons_self id (pdep_and_mask _ _) h
    · exact controls_of_getLsbD_ite (List.mem_cons_of_mem _ List.mem_cons_self) id (pdep_and_mask _ _) h
  | verticalVane | horizontalVane =>
    obtain h | h := Bool.or_eq_true_iff.mp ((BitVec.getLsbD_or ..).symm.trans h)
    · exact controls_of_getLsbD_ite List.mem_cons_self id (pdep_and_mask _ _) h
    · exact controls_of_getLsbD_ite (List.mem_cons_of_mem _ List.mem_cons_self) And.left BitVec.and_self h
  | targetTemperature =>
    obtain ⟨q, hq, hlow, -⟩ := exists_quarters_of_tempInRange hF hrange
    rw [packedByte_targetTemperature hq hlow] at h
    obtain h | h := Bool.or_eq_true_iff.mp ((BitVec.getLsbD_or ..).symm.trans h)
    · exact controls_of_getLsbD_ite List.mem_cons_self id (placeNibble_and_mask _ _) h
    · exact controls_of_getLsbD_ite (List.mem_cons_of_mem _ List.mem_cons_self) id (placeNibble_and_mask _ _) h

/-! ## The payload that ENCF makes (R121) -/

/-- R121: `p` is the OR of the packs of all fields, byte by byte. -/
structure IsEncodedPayload (c : Config) (st : Word) (temp : BitVec 16) (p : List Byte) : Prop where
  length_eq : p.length = c.pLen
  byteAt_eq : ∀ i, i < c.pLen → byteAt p i = allFields.foldl (fun b f => b ||| packedByte c st temp f i) 0

/-- R121: OR the pack of one more field into a payload. -/
def packStep (c : Config) (st : Word) (temp : BitVec 16) (p : List Byte) (f : Field) : Except Error (List Byte) :=
  (packField c st temp f).map (orBytes p)

theorem packAll_eq_foldlM : packAll c st temp = allFields.foldlM (packStep c st temp) (zeroBytes c.pLen) := by
  unfold packAll
  congr 1
  funext p f
  unfold packStep
  cases packField c st temp f <;> rfl

section
variable (hF : 2 ≤ c.fracBits) (hvalid : ∀ f, stateValidFor st f = true) (hrange : tempInRange c.fracBits temp = true)
include hF hvalid hrange

theorem foldlM_packStep (fs : List Field) {p : List Byte} (hp : p.length = c.pLen) :
    ∃ q, fs.foldlM (packStep c st temp) p = .ok q ∧ q.length = c.pLen ∧
      ∀ i, i < c.pLen → byteAt q i = fs.foldl (fun b f => b ||| packedByte c st temp f i) (byteAt p i) := by
  induction fs generalizing p with
  | nil => exact ⟨p, rfl, hp, fun _ _ => rfl⟩
  | cons f fs ih =>
    obtain ⟨r, hr, hrlen, hrbyte⟩ := packField_of_valid hF (hvalid f) fun _ => hrange
    have hstep : packStep c st temp p f = .ok (orBytes p r) := by rw [packStep, hr]; rfl
    obtain ⟨q, hq, hqlen, hqbyte⟩ := ih (p := orBytes p r) (by simp [hp, hrlen])
    refine ⟨q, by rw [List.foldlM_cons, hstep]; exact hq, hqlen, fun i hi => ?_⟩
    rw [hqbyte i hi, List.foldl_cons, byteAt_orBytes p r i (hp ▸ hi) (hrlen ▸ hi), hrbyte i hi]

/-- R121: a valid STATE and a TEMP in range encode. -/
theorem packAll_of_valid : ∃ p, packAll c st temp = .ok p ∧ IsEncodedPayload c st temp p := by
  obtain ⟨p, hp, hlen, hbyte⟩ := foldlM_packStep hF hvalid hrange allFields (zeroBytes_length c.pLen)
  exact ⟨p, packAll_eq_foldlM.trans hp, hlen, fun i hi => by rw [hbyte i hi, byteAt_zeroBytes]⟩

theorem encodeFrame_of_valid :
    ∃ p, encodeFrame c st temp = .ok (sealFrame p) ∧ IsEncodedPayload c st temp p := by
  obtain ⟨p, hp, hencoded⟩ := packAll_of_valid hF hvalid hrange
  have hall : allFields.all (stateValidFor st) = true := List.all_eq_true.mpr fun f _ => hvalid f
  exact ⟨p, by simp [encodeFrame, hall, hrange, hp], hencoded⟩

end

/-- R120: the payload of a frame stands after its header of four bytes. -/
theorem payload_of_sealFrame (p : List Byte) : ((sealFrame p).drop 4).take p.length = p := by
  simp [sealFrame, encoderHeader]

/-! ## An encoded payload under the masks of one field -/

section
variable {p : List Byte} (hp : IsEncodedPayload c st temp p) (hft : c.ft.Legal c.pLen) (hF : 2 ≤ c.fracBits)
  (hrange : tempInRange c.fracBits temp = true)
include hp

theorem IsEncodedPayload.getLsbD {i : Nat} (hi : i < c.pLen) (b : Nat) :
    (byteAt p i).getLsbD b = true ↔ ∃ f, (packedByte c st temp f i).getLsbD b = true := by
  rw [hp.byteAt_eq i hi, getLsbD_foldl_or_zero]
  exact exists_congr fun f => and_iff_right (mem_allFields f)

include hF hrange in
/-- R117 (a): no byte of an encoded payload has a bit that no mask controls. -/
theorem IsEncodedPayload.padMap_eq : padMap c.ft c.pLen p = List.replicate c.pLen false := by
  refine List.eq_replicate_iff.mpr ⟨padMap_length .., fun flag hflag => ?_⟩
  obtain ⟨i, hi, rfl⟩ := List.mem_map.mp hflag
  rw [bne_eq_false_iff_eq]
  by_contra hne
  obtain ⟨b, -, hbit, hfree⟩ := reserved_ne_zero_iff.mp hne
  obtain ⟨f, hf⟩ := (hp.getLsbD (List.mem_range.mp hi) b).mp hbit
  exact hfree (controls_of_packedByte hF hrange hf).table

include hft hF hrange

/-- R96, R117 (a): under a field's own mask an encoded payload holds that field's pack. -/
theorem IsEncodedPayload.and_mask {f : Field} {off : Nat} {mask : Byte} (h : (off, mask) ∈ f.claims c.ft) :
    byteAt p off &&& mask = packedByte c st temp f off &&& mask := by
  obtain ⟨hplaced, hdisjoint, -⟩ := FieldTable.legal_iff.mp hft
  have hoff : off < c.pLen := (hplaced _ (FieldTable.mem_claims h)).1
  apply BitVec.eq_of_getLsbD_eq
  intro b _
  rw [BitVec.getLsbD_and, BitVec.getLsbD_and]
  cases hm : mask.getLsbD b with
  | false => rw [Bool.and_false, Bool.and_false]
  | true =>
    rw [Bool.and_true, Bool.and_true, Bool.eq_iff_iff, hp.getLsbD hoff]
    refine ⟨fun ⟨g, hg⟩ => ?_, fun hf => ⟨f, hf⟩⟩
    have hown : Controls (f.claims c.ft) off b := ⟨_, h, rfl, hm⟩
    rwa [Field.eq_of_controls hdisjoint hown (controls_of_packedByte hF hrange hg)]

end

end

end Sys2Proof.Machine
end

section
/-! PROOFS. DECS undoes ENCF, second part (ob. O36): each field of a `ClimateState` is unpacked from the encoded payload, and
the decoded-state image holds its port code. -/

namespace Sys2Proof.Machine

open Sys2Proof

/-! ## The STATE word of a `ClimateState` (R60) -/

section
variable (cs : ClimateState)

/-- R60: bits 5:0 of the STATE word, the bool fields. -/
def boolBits : Nat :=
  cs.power.toNat + 2 * cs.display.toNat + 4 * cs.buzzer.toNat + 8 * cs.eco.toNat + 16 * cs.heater8Degree.toNat +
    32 * cs.health.toNat

theorem boolBits_lt : boolBits cs < 2 ^ 6 := by
  have := cs.power.toNat_le; have := cs.display.toNat_le; have := cs.buzzer.toNat_le
  have := cs.eco.toNat_le; have := cs.heater8Degree.toNat_le; have := cs.health.toNat_le
  unfold boolBits
  omega

theorem stateWord_toNat : (stateWord cs).toNat =
    boolBits cs + 2 ^ 6 * cs.sleepMode.port + 2 ^ 8 * cs.mode.port + 2 ^ 11 * cs.windSpeed.port +
      2 ^ 14 * cs.verticalVane.port + 2 ^ 18 * cs.horizontalVane.port := by
  have hsleep := cs.sleepMode.port.isLt
  have hmode := cs.mode.port.isLt
  have hwind := cs.windSpeed.port.isLt
  have hvertical := cs.verticalVane.port.isLt
  have hhorizontal := cs.horizontalVane.port.isLt
  unfold stateWord boolBits
  simp only [toNat_append_eq, BitVec.toNat_ofNat, BitVec.toNat_ofBool]
  omega

theorem stateWord_bools :
    (stateWord cs).getLsbD 0 = cs.power ∧ (stateWord cs).getLsbD 1 = cs.display ∧ (stateWord cs).getLsbD 2 = cs.buzzer ∧
    (stateWord cs).getLsbD 3 = cs.eco ∧ (stateWord cs).getLsbD 4 = cs.heater8Degree ∧
    (stateWord cs).getLsbD 5 = cs.health := by
  simp only [stateWord, BitVec.getLsbD_append, BitVec.getLsbD_ofBool]
  simp

/-- R60: the port codes stand where the STATE word's fields are read, and bits 31:22 are 0. -/
theorem stateWord_ports :
    ((stateWord cs).extractLsb' 6 2).toNat = cs.sleepMode.port ∧ ((stateWord cs).extractLsb' 8 3).toNat = cs.mode.port ∧
    ((stateWord cs).extractLsb' 11 3).toNat = cs.windSpeed.port ∧
    ((stateWord cs).extractLsb' 14 4).toNat = cs.verticalVane.port ∧
    ((stateWord cs).extractLsb' 18 4).toNat = cs.horizontalVane.port ∧ (stateWord cs).toNat < 2 ^ 22 := by
  have hbools := boolBits_lt cs
  have hsleep := cs.sleepMode.port.isLt
  have hmode := cs.mode.port.isLt
  have hwind := cs.windSpeed.port.isLt
  have hvertical := cs.verticalVane.port.isLt
  have hhorizontal := cs.horizontalVane.port.isLt
  simp only [BitVec.extractLsb'_toNat, Nat.shiftRight_eq_div_pow, stateWord_toNat]
  omega

/-- R61: the STATE word of a `ClimateState` is valid for every field. -/
theorem stateValidFor_stateWord (f : Field) : stateValidFor (stateWord cs) f = true := by
  obtain ⟨-, hmode, -, hvertical, hhorizontal, hclear⟩ := stateWord_ports cs
  simp only [BitVec.extractLsb'_toNat, Nat.shiftRight_eq_div_pow] at hmode hvertical hhorizontal
  refine stateValidFor_iff.mpr ⟨hclear, fun _ => ?_, fun _ => ?_, fun _ => ?_⟩
  · exact hmode.trans_le (Nat.le_of_lt_succ cs.mode.port.isLt)
  · exact hvertical.trans_le (Nat.le_of_lt_succ cs.verticalVane.port.isLt)
  · exact hhorizontal.trans_le (Nat.le_of_lt_succ cs.horizontalVane.port.isLt)

end

/-! ## Unpacking what was packed (R117 (a)) -/

/-- Of a pack in two parts, the mask at one offset shows the first part where the second belongs to another offset. -/
theorem or_ite_and_mask {x v m : Byte} {Q : Prop} [Decidable Q] (hQ : ¬ Q) (hx : x &&& m = x) :
    (x ||| (if Q then v else 0)) &&& m = x := by
  rw [if_neg hQ]
  exact (congrArg (· &&& m) BitVec.or_zero).trans hx

theorem ite_or_and_mask {x v m : Byte} {P : Prop} [Decidable P] (hP : ¬ P) (hx : x &&& m = x) :
    ((if P then v else 0) ||| x) &&& m = x := by
  rw [BitVec.or_comm, or_ite_and_mask hP hx]

/-- R107: byte `i` of the pack of the vane variant with port code `v`. -/
def vaneByte {n : Nat} (e : VaneEntry n) (v i : Nat) : Byte :=
  (if i = e.offE then pdep (e.enc.toList.getD v 0) e.maskE else 0) |||
  (if i = e.offF ∧ e.flow.toList.getD v false = true then e.bitF else 0)

section
variable {n : Nat} {p : List Byte}

theorem unpackBool_of_and_mask {e : BoolEntry} {v : Bool} (hmask : e.mask ≠ 0)
    (h : byteAt p e.off &&& e.mask = if v = true then e.mask else 0) :
    (unpackBool e p).unrec = false ∧ (unpackBool e p).code.toNat = v.toNat := by
  rw [unpackBool_eq, h]
  cases v with
  | false => rw [if_neg Bool.false_ne_true, if_pos rfl]; exact ⟨rfl, rfl⟩
  | true => rw [if_pos rfl, if_neg hmask]; exact ⟨rfl, rfl⟩

theorem unpackEnum_of_and_mask {e : EnumEntry n} (he : e.Legal) (hn : n ≤ 256) (d v : Fin n)
    (h : byteAt p e.off &&& e.mask = pdep (e.enc.toList.getD v 0) e.mask) :
    (unpackEnum e d p).unrec = false ∧ (unpackEnum e d p).code.toNat = v := by
  obtain ⟨-, -, hvariant, -⟩ := isLookup_unpackEnum he hn d p
  obtain ⟨-, hfits, -⟩ := he
  refine hvariant v ?_
  rw [getD_toList] at h
  exact (pext_of_and_eq_pdep h (hfits _ (by simp))).symm

theorem unpackWind_of_and_mask {e : WindEntry} (he : e.Legal) (v : Fin 8)
    (hU : byteAt p e.offU &&& e.maskU = pdep (BitVec.ofNat 8 ((e.enc.toList.getD v 0).toNat / 8)) e.maskU)
    (hL : byteAt p e.offL &&& e.maskL = pdep (BitVec.ofNat 8 ((e.enc.toList.getD v 0).toNat % 8)) e.maskL) :
    (unpackWind e p).unrec = false ∧ (unpackWind e p).code.toNat = v := by
  obtain ⟨-, -, hvariant, -⟩ := isLookup_unpackWind he p
  obtain ⟨-, -, hmaskU, hmaskL, -⟩ := he
  refine hvariant v ?_
  rw [getD_toList] at hU hL
  have hsel : (e.enc[v]).toNat < 2 ^ 5 := (e.enc[v]).isLt
  have hupper := pext_of_and_eq_pdep hU (by rw [hmaskU, BitVec.toNat_ofNat]; omega)
  have hlower := pext_of_and_eq_pdep hL (by rw [hmaskL, BitVec.toNat_ofNat]; omega)
  apply BitVec.eq_of_toNat_eq
  rw [BitVec.toNat_ofNat, windSelector, hupper, hlower, BitVec.toNat_ofNat, BitVec.toNat_ofNat]
  omega

theorem unpackVane_of_and_mask {e : VaneEntry n} (he : e.Legal) (hbit : e.bitF ≠ 0) (hn : n ≤ 256) (v : Fin n)
    (hE : byteAt p e.offE &&& e.maskE = vaneByte e v e.offE &&& e.maskE)
    (hF : byteAt p e.offF &&& e.bitF = vaneByte e v e.offF &&& e.bitF) :
    (unpackVane e p).unrec = false ∧ (unpackVane e p).code.toNat = v := by
  obtain ⟨-, -, hvariant, -⟩ := isVaneLookup_unpackVane (p := p) he hn
  obtain ⟨-, hoff, -, hfits, -⟩ := he
  have hcode : byteAt p e.offE &&& e.maskE = pdep e.enc[v] e.maskE := by
    rw [hE, vaneByte, if_pos rfl, getD_toList, or_ite_and_mask (fun h => hoff h.1.symm) (pdep_and_mask _ _)]
  have hflow : byteAt p e.offF &&& e.bitF = if e.flow[v] = true then e.bitF else 0 := by
    rw [hF, vaneByte, getD_toList, getD_toList]
    simp only [true_and]
    exact ite_or_and_mask hoff (by split <;> simp)
  refine hvariant v (pext_of_and_eq_pdep hcode (hfits _ (by simp))).symm ?_
  rw [vaneFlow, hflow]
  cases e.flow[v] with
  | false => rfl
  | true => exact (bne_iff_ne.mpr hbit).symm

theorem unpackTemp_of_and_mask {e : TempEntry} {q : Nat} (hlow : 64 ≤ q) (hhigh : q ≤ 124)
    (hI : byteAt p e.offI &&& e.posI.mask = placeNibble e.posI (BitVec.ofNat 4 (31 - q / 4)))
    (hF : byteAt p e.offF &&& e.posF.mask = placeNibble e.posF (BitVec.ofNat 4 (4 * (q % 4)))) :
    (unpackTemp e p).unrec = false ∧ (unpackTemp e p).code.toNat = q := by
  rw [unpackTemp_eq, nibbleAt_of_and_mask hI, nibbleAt_of_and_mask hF, BitVec.toNat_ofNat, BitVec.toNat_ofNat,
    if_pos (by omega)]
  exact ⟨rfl, by simp only [BitVec.toNat_ofNat]; omega⟩

end

/-- R59, R11: the number that stands for a field of a `ClimateState`: its port code, or the temperature's quarter degrees. -/
def portCode (cs : ClimateState) : Field → Nat
  | .power => cs.power.toNat
  | .display => cs.display.toNat
  | .buzzer => cs.buzzer.toNat
  | .eco => cs.eco.toNat
  | .heater8Degree => cs.heater8Degree.toNat
  | .health => cs.health.toNat
  | .sleepMode => cs.sleepMode.port
  | .mode => cs.mode.port
  | .windSpeed => cs.windSpeed.port
  | .verticalVane => cs.verticalVane.port
  | .horizontalVane => cs.horizontalVane.port
  | .targetTemperature => cs.targetQuarters

section
variable {c : Config} {cs : ClimateState} {temp : BitVec 16} {p : List Byte}
  (hp : IsEncodedPayload c (stateWord cs) temp p) (hft : c.ft.Legal c.pLen) (hF : 2 ≤ c.fracBits)
  (hrange : tempInRange c.fracBits temp = true) (hq : quantizeTemp c.fracBits temp = cs.targetQuarters)
include hp hft hF hrange hq

/-- R117 (a): unpacking the OR of all twelve packs gives every field back. -/
theorem IsEncodedPayload.unpackField_eq (f : Field) :
    (unpackField c.ft p f).unrec = false ∧ (unpackField c.ft p f).code.toNat = portCode cs f := by
  have hmask {off mask} := hp.and_mask hft hF hrange (f := f) (off := off) (mask := mask)
  obtain ⟨hplaced, -, -, hsleep, hmode, hwind, hvertical, hhorizontal, -, htemp, -⟩ := FieldTable.legal_iff.mp hft
  obtain ⟨hpower, hdisplay, hbuzzer, heco, hheater, hhealth⟩ := stateWord_bools cs
  obtain ⟨psleep, pmode, pwind, pvertical, phorizontal, -⟩ := stateWord_ports cs
  have hne {off : Nat} {mask : Byte} (ha : (off, mask) ∈ f.claims c.ft) : mask ≠ 0 :=
    (hplaced _ (FieldTable.mem_claims ha)).2
  have hsecond {x y : Nat × Byte} : y ∈ [x, y] := List.mem_cons_of_mem _ List.mem_cons_self
  cases f with
  | power | display | buzzer | eco | heater8Degree | health =>
    refine unpackBool_of_and_mask (hne List.mem_cons_self) ?_
    rw [hmask List.mem_cons_self]
    simp only [packedByte, hpower, hdisplay, hbuzzer, heco, hheater, hhealth, true_and]
    split <;> simp
  | sleepMode =>
    refine unpackEnum_of_and_mask hsleep (by decide) _ _ ?_
    rw [hmask List.mem_cons_self]
    simp only [packedByte, psleep, if_true, pdep_and_mask]
  | mode =>
    refine unpackEnum_of_and_mask hmode (by decide) _ _ ?_
    rw [hmask List.mem_cons_self]
    simp only [packedByte, pmode, if_true, pdep_and_mask]
  | windSpeed =>
    obtain ⟨-, -, -, -, hoff⟩ := id hwind
    refine unpackWind_of_and_mask hwind _ ?upper ?lower
    case upper =>
      rw [hmask List.mem_cons_self]
      simp only [packedByte, pwind, if_true]
      exact or_ite_and_mask hoff (pdep_and_mask _ _)
    case lower =>
      rw [hmask hsecond]
      simp only [packedByte, pwind, if_true]
      exact ite_or_and_mask hoff.symm (pdep_and_mask _ _)
  | verticalVane =>
    exact unpackVane_of_and_mask hvertical (hne hsecond) (by decide) _
      (by rw [hmask List.mem_cons_self, ← pvertical]; rfl) (by rw [hmask hsecond, ← pvertical]; rfl)
  | horizontalVane =>
    exact unpackVane_of_and_mask hhorizontal (hne hsecond) (by decide) _
      (by rw [hmask List.mem_cons_self, ← phorizontal]; rfl) (by rw [hmask hsecond, ← phorizontal]; rfl)
  | targetTemperature =>
    obtain ⟨q, hq', hlow, hhigh⟩ := exists_quarters_of_tempInRange hF hrange
    obtain rfl : cs.targetQuarters = q := by omega
    have hbyte := packedByte_targetTemperature (st := stateWord cs) hq hlow
    refine unpackTemp_of_and_mask hlow hhigh ?int ?frac
    case int =>
      rw [hmask List.mem_cons_self, hbyte, if_pos rfl]
      exact or_ite_and_mask htemp (placeNibble_and_mask _ _)
    case frac =>
      rw [hmask hsecond, hbyte, if_pos rfl]
      exact ite_or_and_mask htemp.symm (placeNibble_and_mask _ _)

/-! ## The decoded-state image (R126) -/

theorem IsEncodedPayload.codeByte_toNat {f : Field} (hlt : portCode cs f < 128) :
    (codeByte (unpackField c.ft p f)).toNat = portCode cs f := by
  obtain ⟨hunrec, hcode⟩ := hp.unpackField_eq hft hF hrange hq f
  rw [codeByte, toNat_append_eq, hunrec, BitVec.toNat_setWidth, hcode, Nat.mod_eq_of_lt hlt]
  exact Nat.zero_add _

theorem IsEncodedPayload.boolsByte_toNat : (boolsByte c.ft p).toNat = boolBits cs := by
  have hbit (f : Field) (h : portCode cs f < 2) : ((unpackField c.ft p f).code.setWidth 1).toNat = portCode cs f := by
    obtain ⟨-, hcode⟩ := hp.unpackField_eq hft hF hrange hq f
    rw [BitVec.toNat_setWidth, hcode, Nat.mod_eq_of_lt h]
  simp only [boolsByte, toNat_append_eq]
  rw [hbit .power (Bool.toNat_lt _), hbit .display (Bool.toNat_lt _), hbit .buzzer (Bool.toNat_lt _),
    hbit .eco (Bool.toNat_lt _), hbit .heater8Degree (Bool.toNat_lt _), hbit .health (Bool.toNat_lt _)]
  simp only [portCode, boolBits, BitVec.toNat_ofNat]
  omega

end

/-- R126: PAD is 0 where no PADMAP bit is set. -/
theorem padByte_replicate (n : Nat) : padByte (List.replicate n false) = 0 := by
  simp [padByte, List.count_replicate]

/-- Settles O36: ENCF's frame holds an encoded payload, from which DECS unpacks every field. -/
theorem decsUndoesEncf : Obligations.DecsUndoesEncf := by
  intro s cs hlegal hstate hrange hq
  obtain ⟨hF, -⟩ := id hlegal
  obtain ⟨p, hframe, hp⟩ := encodeFrame_of_valid hF (stateValidFor_stateWord cs) hrange
  have hencf : exec .encf s = .next (s.respond (.ok (.frame (sealFrame p) (BitVec.ofNat 8 s.cfg.nSs)))) := by
    simp only [exec, execEncf, hstate, hframe, State.answer_ok]
  refine ⟨_, _, hencf, fun s' hcfg hpayload => ⟨_, rfl, ?_⟩⟩
  rw [← hp.length_eq, payload_of_sealFrame] at hpayload
  have hop : payloadOperand s'.cfg s'.bus = p := by
    rw [payloadOperand, hpayload, hcfg, ← hp.length_eq, fitBytes_self]
  rw [hop, hcfg]
  have hcode (f : Field) (hlt : portCode cs f < 128) := hp.codeByte_toNat hlegal.ft hF hrange hq hlt
  have hpad := hp.padMap_eq hF hrange
  obtain ⟨q, hq', -, hhigh⟩ := exists_quarters_of_tempInRange hF hrange
  exact ⟨hpad, hp.boolsByte_toNat hlegal.ft hF hrange hq,
    hcode .sleepMode (cs.sleepMode.port.isLt.trans (by decide)), hcode .mode (cs.mode.port.isLt.trans (by decide)),
    hcode .windSpeed (cs.windSpeed.port.isLt.trans (by decide)),
    hcode .verticalVane (cs.verticalVane.port.isLt.trans (by decide)),
    hcode .horizontalVane (cs.horizontalVane.port.isLt.trans (by decide)),
    hcode .targetTemperature (show cs.targetQuarters < 128 by omega),
    (congrArg padByte hpad).trans (padByte_replicate _)⟩

end Sys2Proof.Machine
end

section
/-! PROOFS. The frame that ENCF makes (ob. O34) and what CVER, CLS and DIR answer about it (ob. O35): the bytes of a sealed
frame, how it classifies, and when the encoder answers one. -/

namespace Sys2Proof.Machine

open Sys2Proof

/-- R39: what follows a header stands at index 4 and above. -/
theorem byteAt_headedFrame (dir : Direction) (cmd : Byte) (rest : List Byte) (i : Nat) :
    byteAt (headedFrame dir cmd rest) (4 + i) = byteAt rest i := by
  rw [Nat.add_comm]
  cases dir <;> rfl

/-! ## A sealed frame (R120, R121) -/

section
variable (p : List Byte)

/-- R65: a sealed frame has the adapter→unit state-set header, and the checksum after its payload. -/
theorem sealFrame_eq_headedFrame : sealFrame p = headedFrame .a2u 0x03 (p ++ [xorFold (encoderHeader ++ p)]) :=
  (headedFrame_concat .a2u 0x03 p _).symm

@[simp] theorem sealFrame_length : (sealFrame p).length = p.length + 5 := by simp [sealFrame_eq_headedFrame]

theorem take_length_sealFrame : (sealFrame p).take (4 + p.length) = encoderHeader ++ p :=
  List.take_left' (by rw [List.length_append]; rfl)

theorem byteAt_sealFrame_payload {i : Nat} (h : i < p.length) : byteAt (sealFrame p) (4 + i) = byteAt p i := by
  rw [sealFrame_eq_headedFrame, byteAt_headedFrame]
  exact List.getD_append _ _ _ _ h

/-- R121: the last byte is the XOR of all before. -/
theorem byteAt_sealFrame_checksum :
    byteAt (sealFrame p) (4 + p.length) = xorFold ((sealFrame p).take (4 + p.length)) := by
  rw [take_length_sealFrame, sealFrame_eq_headedFrame, byteAt_headedFrame]
  simp [byteAt]

/-- R86 (a): a sealed frame verifies. -/
theorem verifyFrame_sealFrame : verifyFrame (sealFrame p) = true := by
  rw [sealFrame, verifyFrame_append, beq_self_eq_true]

/-- R122 (b): a sealed payload of P_LEN bytes classifies as StateSet with that payload. -/
theorem classify_sealFrame {c : Config} (hlegal : c.Legal) (h : p.length = c.pLen) :
    classify c (sealFrame p) = .stateSet p := by
  rw [sealFrame_eq_headedFrame, classify_stateset hlegal (by simp [h]), List.take_left' h]

end

/-! ## When the encoder makes a frame (R121) -/

section
variable {c : Config} {st : Word} {temp : BitVec 16}

theorem encodeFrame_of_not_inRange (hvalid : ∀ f, stateValidFor st f = true) (h : tempInRange c.fracBits temp = false) :
    encodeFrame c st temp = .error outOfRange := by
  have hall : allFields.all (stateValidFor st) = true := List.all_eq_true.mpr fun f _ => hvalid f
  simp [encodeFrame, hall, h]

/-- R121: the encoder makes a frame only by sealing an encoded payload. -/
theorem encodeFrame_ok (hF : 2 ≤ c.fracBits) {frame : List Byte} (h : encodeFrame c st temp = .ok frame) :
    ∃ p, frame = sealFrame p ∧ IsEncodedPayload c st temp p := by
  have hvalid (f : Field) : stateValidFor st f = true := by
    by_contra hf
    rw [encodeFrame_of_invalid c temp (eq_false_of_ne_true hf)] at h
    cases h
  have hrange : tempInRange c.fracBits temp = true := by
    by_contra hr
    rw [encodeFrame_of_not_inRange hvalid (eq_false_of_ne_true hr)] at h
    cases h
  obtain ⟨p, hp, hencoded⟩ := encodeFrame_of_valid hF hvalid hrange
  cases hp.symm.trans h
  exact ⟨p, rfl, hencoded⟩

end

/-! ## The responses of ENCF, CLS and DIR -/

section
variable {s : State} {frame : List Byte}

theorem exec_encf_of_ok (h : encodeFrame s.cfg s.bus.state s.bus.temp = .ok frame) :
    exec .encf s = .next (s.respond (.ok (.frame frame (BitVec.ofNat 8 s.cfg.nSs)))) := by
  change s.answer _ = _
  rw [h]
  rfl

theorem exec_encf_of_error {e : Error} (h : encodeFrame s.cfg s.bus.state s.bus.temp = .error e) :
    exec .encf s = .next (s.respond (.err e)) := by
  change s.answer _ = _
  rw [h]
  rfl

theorem of_exec_encf_frame {n : Byte} (h : exec .encf s = .next (s.respond (.ok (.frame frame n)))) :
    encodeFrame s.cfg s.bus.state s.bus.temp = .ok frame ∧ n = BitVec.ofNat 8 s.cfg.nSs := by
  have ha := State.ok_of_answer h rfl
  split at ha <;> cases ha
  exact ⟨‹_›, rfl⟩

/-- R129: CLS of a state-set frame. -/
theorem exec_cls_of_stateSet {p : List Byte} (hop : frameOperand s.cfg s.bus = .ok frame)
    (h : classify s.cfg frame = .stateSet p) : exec .cls s = .next (s.respond (.ok (.kind .stateSet 0x03 p))) := by
  change s.answer _ = _
  rw [hop]
  simp only [clsResult, h]
  rfl

/-- R130: DIR of a frame with a header. -/
theorem exec_dir_of_headed {dir : Direction} {cmd : Byte} {rest : List Byte}
    (hop : frameOperand s.cfg s.bus = .ok (headedFrame dir cmd rest)) :
    exec .dir s = .next (s.respond (.ok (.dir dir))) := by
  have hlen : ¬ (headedFrame dir cmd rest).length < 3 := by rw [headedFrame_length]; omega
  change s.answer _ = _
  rw [hop]
  simp only [dirAnswer, if_neg hlen, frameDirection_headedFrame, State.answer_ok]

/-- R42: a sealed frame on the buses with its N_SS is the frame operand. -/
theorem frameOperand_sealFrame {p : List Byte} (hlegal : s.cfg.Legal) (hp : p.length = s.cfg.pLen)
    (hframe : s.bus.frame = sealFrame p) (hlen : s.bus.len = BitVec.ofNat 8 s.cfg.nSs) :
    frameOperand s.cfg s.bus = .ok (sealFrame p) := by
  obtain ⟨-, -, hmax, h255, -⟩ := hlegal
  have hlength : (sealFrame p).length = s.cfg.nSs := by rw [sealFrame_length, hp, Config.nSs]
  rw [← hlength] at hlen hmax
  rw [← frameOperand_withFrame (s := s) (hmax.trans h255) hmax]
  exact frameOperand_congr _ hlen fun _ _ => by rw [hframe]; rfl

end

/-! ## The obligations -/

/-- Settles O34: the errors in the encoder's order, then the bytes of a sealed frame. -/
theorem encfBuildsTheFrame : Obligations.EncfBuildsTheFrame := by
  refine ⟨by decide, fun s hF => ⟨fun ⟨_, hf⟩ => ?invalid, fun hvalid hrange => ?range, fun hvalid hrange => ?frame⟩⟩
  case invalid => exact exec_encf_of_error (encodeFrame_of_invalid _ _ hf)
  case range => exact exec_encf_of_error (encodeFrame_of_not_inRange hvalid hrange)
  case frame =>
    obtain ⟨p, hframe, hp⟩ := encodeFrame_of_valid hF hvalid hrange
    have hlen := hp.length_eq
    refine ⟨sealFrame p, exec_encf_of_ok hframe, ?length, rfl, fun i hi => ?payload, ?checksum⟩
    case length => rw [sealFrame_length, hlen, Config.nSs]
    case payload => rw [byteAt_sealFrame_payload p (hlen ▸ hi), hp.byteAt_eq i hi]
    case checksum => rw [← hlen, byteAt_sealFrame_checksum]

/-- Settles O35: ENCF's frame is a sealed one, the frame operand of the three requests. -/
theorem encodedFrameVerifiesAndClassifies : Obligations.EncodedFrameVerifiesAndClassifies := by
  intro s s' frame n hlegal hcfg hencf hframe hn
  obtain ⟨hF, -⟩ := id hlegal
  obtain ⟨hencode, hlen⟩ := of_exec_encf_frame hencf
  obtain ⟨p, rfl, hp⟩ := encodeFrame_ok hF hencode
  have hplen := hp.length_eq
  rw [← hplen, payload_of_sealFrame]
  rw [← hcfg] at hlegal hplen hlen
  have hop := frameOperand_sealFrame hlegal hplen hframe (hn.trans hlen)
  have hcver := exec_cver_of_ne_nil hop (List.ne_nil_of_length_pos (by rw [sealFrame_length]; omega))
  rw [verifyFrame_sealFrame] at hcver
  exact ⟨⟨_, hcver⟩, exec_cls_of_stateSet hop (classify_sealFrame p hlegal hplen),
    exec_dir_of_headed (hop.trans (congrArg _ (sealFrame_eq_headedFrame p)))⟩

end Sys2Proof.Machine
end

section
/-! PROOFS. The Frame Classifier (ob. O39) and DIR (ob. O40): the six tests of R124 one by one, and the direction of a frame. -/

namespace Sys2Proof.Machine

open Sys2Proof

/-! ## The tests of R124 -/

section
variable {c : Config} {frame : List Byte}

/-- R123, R124: the entries of a legal catalog are distinct, so an entry is recognized with its own index. -/
theorem classify_of_getElem?_kcat (hlegal : c.Legal) {id : Nat} (h : c.kcat[id]? = some frame) :
    classify c frame = .recognizedConstant (BitVec.ofNat 8 id) := by
  obtain ⟨-, -, -, -, ⟨-, -, hnodup⟩, -⟩ := hlegal
  obtain ⟨hid, rfl⟩ := List.getElem?_eq_some_iff.mp h
  rw [classify, idxOf?_getElem_of_nodup hnodup hid]

theorem classify_of_tooShort (hmem : frame ∉ c.kcat) (hlen : frame.length < 5) :
    classify c frame = .malformed .tooShort := by
  rw [classify, List.idxOf?_eq_none_iff.mpr hmem]
  exact if_pos hlen

theorem classify_of_badMarker (hmem : frame ∉ c.kcat) (hlen : 5 ≤ frame.length) (hmark : byteAt frame 0 ≠ 0xBB) :
    classify c frame = .malformed .badMarker := by
  rw [classify, List.idxOf?_eq_none_iff.mpr hmem]
  exact (if_neg (Nat.not_lt.mpr hlen)).trans (if_pos hmark)

theorem classify_of_badDirection (hmem : frame ∉ c.kcat) (hlen : 5 ≤ frame.length) (hmark : byteAt frame 0 = 0xBB)
    (hpair : ¬ isDirectionPair (byteAt frame 1) (byteAt frame 2)) : classify c frame = .malformed .badDirection := by
  rw [classify, List.idxOf?_eq_none_iff.mpr hmem]
  exact (if_neg (Nat.not_lt.mpr hlen)).trans ((if_neg (not_not.mpr hmark)).trans (if_pos hpair))

/-- R124: the tests of a frame with a good header, by its command and its length against N_SS. -/
theorem classify_of_header (hlegal : c.Legal) (hmem : frame ∉ c.kcat) (hlen : 5 ≤ frame.length)
    (hmark : byteAt frame 0 = 0xBB) (hpair : isDirectionPair (byteAt frame 1) (byteAt frame 2)) :
    (byteAt frame 3 = 0x03 → frame.length < c.nSs → classify c frame = .malformed .tooShort) ∧
    (byteAt frame 3 = 0x03 → c.nSs < frame.length → classify c frame = .malformed .badLength) ∧
    (byteAt frame 3 = 0x03 → frame.length = c.nSs → classify c frame = .stateSet ((frame.drop 4).take c.pLen)) ∧
    (byteAt frame 3 ≠ 0x03 → classify c frame = .unknownCommand (byteAt frame 3)) := by
  obtain ⟨dir, hframe⟩ := exists_eq_headedFrame (by omega) hmark hpair
  have hrest : (frame.drop 4).length = frame.length - 4 := List.length_drop
  rw [Config.nSs]
  refine ⟨fun hcmd hlt => ?_, fun hcmd hgt => ?_, fun hcmd heq => ?_, fun hcmd => ?_⟩
  · rw [hframe, hcmd, classify_stateset_short hlegal (by omega)]
  · rw [hframe, hcmd, classify_stateset_long hlegal (by omega)]
  · rw [hcmd] at hframe
    exact (congrArg (classify c) hframe).trans (classify_stateset hlegal (by omega))
  · have hne : frame.drop 4 ≠ [] := List.ne_nil_of_length_pos (by omega)
    have h := classify_headedFrame (hframe ▸ hmem)
    rw [if_neg hne, if_neg hcmd] at h
    exact (congrArg (classify c) hframe).trans h

/-- R123, R124: a frame of a legal configuration that is not Malformed has a direction pair and at least five bytes. -/
theorem header_of_not_malformed (hlegal : c.Legal) (h : ∀ r, classify c frame ≠ .malformed r) :
    5 ≤ frame.length ∧ isDirectionPair (byteAt frame 1) (byteAt frame 2) := by
  by_cases hmem : frame ∈ c.kcat
  case pos =>
    obtain ⟨hlen, -, -, hpair, -⟩ := legalEntry_of_mem hlegal hmem
    exact ⟨hlen, hpair⟩
  case neg =>
    have hlen : 5 ≤ frame.length := by
      by_contra hshort
      exact h _ (classify_of_tooShort hmem (by omega))
    have hmark : byteAt frame 0 = 0xBB := by
      by_contra hbad
      exact h _ (classify_of_badMarker hmem hlen hbad)
    refine ⟨hlen, ?_⟩
    by_contra hbad
    exact h _ (classify_of_badDirection hmem hlen hmark hbad)

end

/-! ## The response of CLS (R129) -/

/-- R129: what CLS drives on R_PAYLOAD. -/
def FrameKind.payloadBus (c : Config) : FrameKind → List Byte
  | .stateSet p => p
  | .recognizedConstant _ | .unknownCommand _ | .malformed _ => zeroBytes c.pLen

theorem clsResult_eq (c : Config) (frame : List Byte) :
    clsResult c frame =
      .kind (classify c frame).kindCode (classify c frame).aux ((classify c frame).payloadBus c) := by
  unfold clsResult
  cases classify c frame with
  | recognizedConstant | stateSet | unknownCommand | malformed => rfl

section
variable {s : State} {frame : List Byte}

theorem exec_cls_of_classify {k : FrameKind} (hop : frameOperand s.cfg s.bus = .ok frame)
    (h : classify s.cfg frame = k) :
    exec .cls s = .next (s.respond (.ok (.kind k.kindCode k.aux (k.payloadBus s.cfg)))) := by
  change s.answer _ = _
  rw [hop, ← h, ← clsResult_eq]
  rfl

/-- R42, R129: CLS completes on a frame operand only, with its classification. -/
theorem of_exec_cls_kind {k : KindCode} {aux : Byte} {p : List Byte}
    (h : exec .cls s = .next (s.respond (.ok (.kind k aux p)))) :
    ∃ frame, frameOperand s.cfg s.bus = .ok frame ∧ k = (classify s.cfg frame).kindCode ∧
      aux = (classify s.cfg frame).aux ∧ p = (classify s.cfg frame).payloadBus s.cfg := by
  have ha := State.ok_of_answer h rfl
  split at ha
  · cases ha
  next frame hop =>
    rw [clsResult_eq] at ha
    cases ha
    exact ⟨frame, hop, rfl, rfl, rfl⟩

/-! ## The response of DIR (R125, R130) -/

theorem exec_dir_of_operand (hop : frameOperand s.cfg s.bus = .ok frame) :
    exec .dir s = s.answer (dirAnswer frame) := by
  change s.answer _ = _
  rw [hop]

theorem dirAnswer_of_short (h : frame.length < 3) : dirAnswer frame = .error truncated := if_pos h

theorem dirAnswer_of_direction {d : Direction} (h : frameDirection frame = some d) : dirAnswer frame = .ok (.dir d) := by
  have hlen : ¬ frame.length < 3 := fun hshort => by
    rw [frameDirection, if_pos hshort] at h
    cases h
  rw [dirAnswer, if_neg hlen, h]

theorem dirAnswer_of_not_pair (hlen : 3 ≤ frame.length) (h : ¬ isDirectionPair (byteAt frame 1) (byteAt frame 2)) :
    dirAnswer frame = .error ⟨.malformed, MalformedReason.badDirection.code⟩ := by
  obtain ⟨ha2u, hu2a⟩ := not_or.mp h
  have hlen' := Nat.not_lt.mpr hlen
  have hnone : frameDirection frame = none := by
    rw [frameDirection, if_neg hlen', if_neg ha2u, if_neg hu2a]
  rw [dirAnswer, if_neg hlen', hnone]

theorem frameDirection_a2u (hlen : 3 ≤ frame.length) (h1 : byteAt frame 1 = 0x00) (h2 : byteAt frame 2 = 0x01) :
    frameDirection frame = some .a2u := by
  rw [frameDirection, if_neg (Nat.not_lt.mpr hlen), if_pos ⟨h1, h2⟩]

theorem frameDirection_u2a (hlen : 3 ≤ frame.length) (h1 : byteAt frame 1 = 0x01) (h2 : byteAt frame 2 = 0x00) :
    frameDirection frame = some .u2a := by
  rw [frameDirection, if_neg (Nat.not_lt.mpr hlen), if_neg (by simp [h1]), if_pos ⟨h1, h2⟩]

end

/-! ## The obligations -/

/-- Settles O39: the frame operand's bytes are those of the bus, and the tests of R124 apply to it in turn. -/
theorem clsClassifiesFrames : Obligations.ClsClassifiesFrames := by
  refine ⟨by decide, fun s hlegal => ?_⟩
  intro n frame at_ gives zeros
  refine ⟨fun hlt => ?tooLong, fun hle => ⟨fun id hid => ?catalog, fun hmem => ?tests⟩⟩
  case tooLong => exact exec_of_frameOperand_error (by simp) (frameOperand_of_lt hlt)
  case catalog => exact exec_cls_of_classify (frameOperand_of_le hle) (classify_of_getElem?_kcat hlegal hid)
  case tests =>
    have hlength : frame.length = n := fitBytes_length _ _
    have hbyte {i : Nat} (hi : i < n) : byteAt frame i = at_ i := byteAt_fitBytes _ _ _ hi
    have hcls {k : FrameKind} (hk : classify s.cfg frame = k) : gives k.kindCode k.aux (k.payloadBus s.cfg) :=
      exec_cls_of_classify (frameOperand_of_le hle) hk
    refine ⟨fun hshort => ?short, fun hlen hmark => ?marker, fun hlen hmark hpair => ?pair,
      fun hlen hmark hpair => ?header⟩
    case short => exact hcls (classify_of_tooShort hmem (by omega))
    all_goals
      rw [← hbyte (by omega)] at hmark
    case marker => exact hcls (classify_of_badMarker hmem (by omega) hmark)
    all_goals
      rw [← hbyte (by omega), ← hbyte (by omega)] at hpair
    case pair => exact hcls (classify_of_badDirection hmem (by omega) hmark hpair)
    case header =>
      rw [← hbyte (by omega), ← hlength]
      obtain ⟨hshort, hlong, hstate, hunknown⟩ := classify_of_header hlegal hmem (by omega) hmark hpair
      exact ⟨fun hcmd hlt => hcls (hshort hcmd hlt), fun hcmd hgt => hcls (hlong hcmd hgt),
        fun hcmd heq => hcls (hstate hcmd heq), fun hcmd => hcls (hunknown hcmd)⟩

/-- Settles O40: the length test, then the pair at bytes 1 and 2. -/
theorem dirComparesTheHeaderPair : Obligations.DirComparesTheHeaderPair := by
  refine ⟨by decide, fun s => ?_⟩
  intro n b1 b2
  have hlength : (fitBytes n s.bus.frame).length = n := fitBytes_length _ _
  refine ⟨fun hlt => ?tooLong, fun hle hshort => ?short, fun hle hlen => ?pair⟩
  case tooLong => exact exec_of_frameOperand_error (by simp) (frameOperand_of_lt hlt)
  case short => rw [exec_dir_of_operand (frameOperand_of_le hle), dirAnswer_of_short (hlength.trans_lt hshort)]; rfl
  case pair =>
    have hdir {a : Except Error Result} (ha : dirAnswer (fitBytes n s.bus.frame) = a) : exec .dir s = s.answer a := by
      rw [exec_dir_of_operand (frameOperand_of_le hle), ← ha]
    have hb1 : byteAt (fitBytes n s.bus.frame) 1 = b1 := byteAt_fitBytes _ _ _ (by omega)
    have hb2 : byteAt (fitBytes n s.bus.frame) 2 = b2 := byteAt_fitBytes _ _ _ (by omega)
    rw [← hb1, ← hb2]
    exact ⟨fun h1 h2 => hdir (dirAnswer_of_direction (frameDirection_a2u (by omega) h1 h2)),
      fun h1 h2 => hdir (dirAnswer_of_direction (frameDirection_u2a (by omega) h1 h2)),
      fun hpair => hdir (dirAnswer_of_not_pair (by omega) hpair)⟩

end Sys2Proof.Machine
end

section
/-! PROOFS. DECF as the sum of its parts (ob. O41), and the catalog entries, K0 among them, that it recognizes (ob. O43, O44). -/

namespace Sys2Proof.Machine

open Sys2Proof

/-! ## When a frame decodes (R128) -/

section
variable {c : Config} {frame : List Byte}

theorem FrameKind.kindCode_eq_malformed_iff {k : FrameKind} : k.kindCode = .malformed ↔ ∃ r, k = .malformed r := by
  cases k with
  | malformed r => exact ⟨fun _ => ⟨r, rfl⟩, fun _ => rfl⟩
  | recognizedConstant | stateSet | unknownCommand => exact ⟨nofun, nofun⟩

/-- R128, R143: the status of a Malformed frame is read off its reason, 1 being TOO_SHORT. -/
theorem decodeFrame_of_malformed {r : MalformedReason} (h : classify c frame = .malformed r) :
    decodeFrame c frame = .error ⟨if r.code = 1 then .truncated else .malformed, r.code⟩ := by
  rw [decodeFrame, h]
  cases r <;> rfl

theorem exists_decodeFrame_ok (h : ∀ r, classify c frame ≠ .malformed r) : ∃ d, decodeFrame c frame = .ok d := by
  cases hd : decodeFrame c frame with
  | ok d => exact ⟨d, rfl⟩
  | error e =>
    obtain ⟨r, hr, -⟩ := decodeFrame_error hd
    exact absurd hr (h r)

end

/-! ## The responses of DECF and DECS -/

section
variable {s : State} {frame : List Byte}

theorem exec_decf_of_operand (hop : frameOperand s.cfg s.bus = .ok frame) :
    exec .decf s = s.answer (decfAnswer s.cfg frame) := by
  change s.answer _ = _
  rw [hop]

/-- R123, R128: a catalog entry runs as its recognition, with no state. -/
theorem runFrame_of_recognizedConstant {id : Byte} (hlen : frame.length ≤ s.cfg.nMax)
    (h : classify s.cfg frame = .recognizedConstant id) :
    runFrame frame s = .next (s.respond (.ok (.decoded (frameResult s.cfg frame false (noState s.cfg))))) := by
  simp [runFrame, Nat.not_lt.mpr hlen, decfAnswer, decodeFrame, h]

/-- R55, R131: DECS of a payload of P_LEN bytes put on the bus. -/
theorem exec_decs_withPayload {p : List Byte} (h : p.length = s.cfg.pLen) :
    exec .decs (s.withPayload p) = .next ((s.withPayload p).respond (.ok (.state (decodeState s.cfg p)))) := by
  have hop : payloadOperand s.cfg (s.withPayload p).bus = p := by
    rw [payloadOperand, ← h]
    exact fitBytes_self p
  change Host.Outcome.next ((s.withPayload p).respond (.ok (.state (decodeState s.cfg (payloadOperand s.cfg _))))) = _
  rw [hop]

/-- R125, R130: DIR answers for every frame that is not Malformed. -/
theorem exec_dir_of_not_malformed (hlegal : s.cfg.Legal) (hop : frameOperand s.cfg s.bus = .ok frame)
    (h : ∀ r, classify s.cfg frame ≠ .malformed r) :
    exec .dir s = .next (s.respond (.ok (.dir ((frameDirection frame).getD .a2u)))) := by
  obtain ⟨hlen, hpair⟩ := header_of_not_malformed hlegal h
  obtain ⟨dir, hdir⟩ := Option.isSome_iff_exists.mp (frameDirection_isSome (by omega) hpair)
  rw [exec_dir_of_operand hop, dirAnswer_of_direction hdir, hdir]
  rfl

end

/-! ## The obligations -/

/-- Settles O41: all five operations read the same frame operand, and its classification decides. -/
theorem decfAgreesWithItsParts : Obligations.DecfAgreesWithItsParts := by
  intro s k aux p hlegal hcls
  obtain ⟨frame, hop, rfl, rfl, rfl⟩ := of_exec_cls_kind hcls
  have hdecf := exec_decf_of_operand hop
  refine ⟨fun hmal => ?malformed, fun hmal => ?decoded⟩
  case malformed =>
    obtain ⟨r, hr⟩ := FrameKind.kindCode_eq_malformed_iff.mp hmal
    rw [hdecf, decfAnswer_eq_error_iff.mpr (decodeFrame_of_malformed hr), hr]
    rfl
  case decoded =>
    have hok : ∀ r, classify s.cfg frame ≠ .malformed r := fun r hr =>
      hmal (FrameKind.kindCode_eq_malformed_iff.mpr ⟨r, hr⟩)
    obtain ⟨hlen, -⟩ := header_of_not_malformed hlegal hok
    have hne : frame ≠ [] := List.ne_nil_of_length_pos (by omega)
    obtain ⟨d, hd⟩ := exists_decodeFrame_ok hok
    obtain ⟨hkind, haux, hdir, hcsv, hstate⟩ := decodeFrame_ok hd
    rw [decfAnswer_eq_ok_iff.mpr hd] at hdecf
    refine ⟨d, _, hdecf, hkind, haux, hdir ▸ exec_dir_of_not_malformed hlegal hop hok,
      hcsv ▸ exec_cver_of_ne_nil hop hne, ?_⟩
    obtain ⟨p, hp, hhas, hdsi, hpad⟩ | ⟨hnone, hhas, hdsi, hpad⟩ := hstate
    case inl =>
      obtain ⟨-, -, hplen, -⟩ := classify_stateSet hp
      rw [hp, hdsi, hpad]
      exact ⟨fun _ => ⟨hhas, exec_decs_withPayload hplen⟩, fun h => absurd rfl h⟩
    case inr =>
      refine ⟨fun h => ?_, fun _ => ⟨hhas, hdsi, hpad⟩⟩
      obtain ⟨id, hid⟩ | ⟨cmd, hcmd⟩ := hnone
      · rw [hid] at h; cases h
      · rw [hcmd] at h; cases h

/-- Settles O43: the entries of a legal catalog are distinct, fit the FRAME bus, and have indices that fit a byte. -/
theorem catalogEntriesAreRecognized : Obligations.CatalogEntriesAreRecognized := by
  intro s id entry hlegal hentry
  obtain ⟨-, hmax, -⟩ := legalEntry_of_mem hlegal (List.mem_of_getElem? hentry)
  have hclass := classify_of_getElem?_kcat hlegal hentry
  obtain ⟨-, -, -, h255, ⟨hcount, -⟩, -⟩ := hlegal
  have hid : id < s.cfg.kcat.length := (List.getElem?_eq_some_iff.mp hentry).1
  refine ⟨frameResult s.cfg entry false (noState s.cfg), ?_, ?_, ?_, rfl⟩
  · rw [exec_decf_eq_runFrame, fitBytes_withFrame (hmax.trans h255)]
    exact runFrame_of_recognizedConstant (s := s.withFrame entry) hmax hclass
  · rw [frameResult, hclass]; rfl
  · rw [frameResult, hclass]
    exact Nat.mod_eq_of_lt (by omega)

/-- Settles O44: K0 is entry 0 of every catalog. -/
theorem keepaliveK0IsRecognized : Obligations.KeepaliveK0IsRecognized := by
  intro s hlegal
  have hentry : s.cfg.kcat[0]? = some keepaliveK0Bytes := rfl
  obtain ⟨-, hmax, -⟩ := legalEntry_of_mem hlegal (List.mem_of_getElem? hentry)
  have hclass := classify_of_getElem?_kcat hlegal hentry
  have hdir : frameDirection keepaliveK0Bytes = some .a2u := by decide
  have hcsv : verifyFrame keepaliveK0Bytes = true := by decide
  rw [exec_eq_runFrame (bytes := keepaliveK0Bytes) rfl, runFrame_of_recognizedConstant hmax hclass, frameResult, hclass,
    hdir, hcsv]
  rfl

end Sys2Proof.Machine
end

section
/-! PROOFS. The decoded-state image of DECS against what FUNPACK answers (ob. O37), in every state: the code that a field unpacks
to stays below 128, whatever the Field Table. -/

namespace Sys2Proof.Machine

open Sys2Proof

/-! ## Field results that the image can hold (R126) -/

/-- R126: the code fits beside UNREC in a code byte, and is 0 where UNREC is set. -/
def FieldResult.FitsImage (r : FieldResult) : Prop := r.code.toNat < 128 ∧ (r.unrec = true → r.code = 0)

theorem FieldResult.FitsImage.codeByte_eq {r : FieldResult} (h : r.FitsImage) :
    codeByte r = if r.unrec then 0x80 else r.code := by
  obtain ⟨hlt, hzero⟩ := h
  rw [codeByte]
  split
  case isTrue hunrec => rw [hunrec, hzero hunrec]; rfl
  case isFalse hunrec =>
    rw [eq_false_of_ne_true hunrec]
    apply BitVec.eq_of_toNat_eq
    rw [toNat_append_eq, BitVec.toNat_setWidth, Nat.mod_eq_of_lt hlt]
    exact Nat.zero_add _

theorem fitsImage_unrecognized (raw : Byte) (flow : Bool) : FieldResult.FitsImage ⟨true, 0, raw, flow⟩ :=
  ⟨show (0 : Byte).toNat < 128 by decide, fun _ => rfl⟩

theorem fitsImage_code {code : Byte} (h : code.toNat < 128) (raw : Byte) (flow : Bool) :
    FieldResult.FitsImage ⟨false, code, raw, flow⟩ := ⟨h, nofun⟩

/-- A variant's port code is an index among at most 128 variants. -/
theorem fitsImage_index {α : Type} [BEq α] [LawfulBEq α] {l : List α} {x : α} {v : Nat} (h : l.idxOf? x = some v)
    (hl : l.length ≤ 128) (raw : Byte) (flow : Bool) : FieldResult.FitsImage ⟨false, BitVec.ofNat 8 v, raw, flow⟩ := by
  obtain ⟨hv, -⟩ := List.idxOf?_eq_some_iff.mp h
  refine fitsImage_code ?_ raw flow
  rw [BitVec.toNat_ofNat]
  omega

theorem fitsImage_lookupCode {w : Nat} {codes unassigned : List (BitVec w)} {dflt raw : Byte} {r : BitVec w}
    (hl : codes.length ≤ 128) (hd : dflt.toNat < 128) : (lookupCode codes unassigned dflt r raw).FitsImage := by
  unfold lookupCode
  split
  case h_1 v hv => exact fitsImage_index hv hl _ _
  case h_2 =>
    split
    · exact fitsImage_code hd _ _
    · exact fitsImage_unrecognized _ _

theorem fitsImage_unpackVane {n : Nat} (e : VaneEntry n) (hn : n ≤ 128) (p : List Byte) : (unpackVane e p).FitsImage := by
  unfold unpackVane
  dsimp only
  split
  case h_1 v hv => exact fitsImage_index hv (by rwa [VaneEntry.pairs_length]) _ _
  case h_2 =>
    split
    · exact fitsImage_code (by decide) _ _
    · exact fitsImage_unrecognized _ _

/-- R113: 4 * (31 - T_INT) + T_FRAC / 4 is at most 4 * 31 + 3. -/
theorem fitsImage_unpackTemp (e : TempEntry) (p : List Byte) : (unpackTemp e p).FitsImage := by
  have hfrac : (nibbleAt e.posF (byteAt p e.offF)).toNat < 16 := BitVec.isLt _
  rw [unpackTemp_eq]
  split
  · refine fitsImage_code ?_ _ _
    rw [BitVec.toNat_ofNat]
    omega
  · exact fitsImage_unrecognized _ _

theorem fitsImage_unpackField (ft : FieldTable) (p : List Byte) (f : Field) : (unpackField ft p f).FitsImage := by
  have hbool (e : BoolEntry) : (unpackBool e p).FitsImage := by
    rw [unpackBool_eq]
    split <;> exact fitsImage_code (by decide) _ _
  cases f with
  | power | display | buzzer | eco | heater8Degree | health => exact hbool _
  | sleepMode | mode | windSpeed => exact fitsImage_lookupCode (by simp) (by decide)
  | verticalVane | horizontalVane => exact fitsImage_unpackVane _ (by decide) p
  | targetTemperature => exact fitsImage_unpackTemp _ p

/-! ## The bytes of the image (R126) -/

/-- R58, R126: DSI bytes 1 to 6 and 8 to 13 hold the fields with the ids 6 to 11, in this order. -/
theorem dsi_of_code_field (c : Config) (p : List Byte) {k : Nat} (hlow : 1 ≤ k) (hhigh : k ≤ 6) :
    ∃ f, fieldOf (BitVec.ofNat 4 (k + 5)) = some f ∧
      (decodeState c p).dsi[k]? = some (codeByte (unpackField c.ft p f)) ∧
      (decodeState c p).dsi[k + 7]? = some (unpackField c.ft p f).raw := by
  match k, hlow, hhigh with
  | 1, _, _ => exact ⟨.sleepMode, rfl, rfl, rfl⟩
  | 2, _, _ => exact ⟨.mode, rfl, rfl, rfl⟩
  | 3, _, _ => exact ⟨.windSpeed, rfl, rfl, rfl⟩
  | 4, _, _ => exact ⟨.verticalVane, rfl, rfl, rfl⟩
  | 5, _, _ => exact ⟨.horizontalVane, rfl, rfl, rfl⟩
  | 6, _, _ => exact ⟨.targetTemperature, rfl, rfl, rfl⟩

/-- R126: bits 7:6 of byte 0 are 0. -/
theorem boolsByte_toNat_lt (ft : FieldTable) (p : List Byte) : (boolsByte ft p).toNat < 64 := by
  simp only [boolsByte, toNat_append_eq, BitVec.toNat_setWidth, BitVec.toNat_ofNat]
  omega

/-- R109: a bool field's code is one bit. -/
theorem unpackBool_code_toNat (e : BoolEntry) (p : List Byte) :
    (unpackBool e p).code.toNat = ((unpackBool e p).code.getLsbD 0).toNat := by
  rw [unpackBool_eq]
  split <;> rfl

/-- R58, R126: bit `k` of byte 0 is the code of the bool field with id `k`. -/
theorem boolsByte_bit (ft : FieldTable) (p : List Byte) {k : Nat} (hk : k < 6) :
    ∃ f e, fieldOf (BitVec.ofNat 4 k) = some f ∧ unpackField ft p f = unpackBool e p ∧
      (boolsByte ft p).getLsbD k = (unpackBool e p).code.getLsbD 0 := by
  simp only [boolsByte, BitVec.getLsbD_append]
  match k, hk with
  | 0, _ => exact ⟨.power, ft.power, rfl, rfl, by simp [unpackField]⟩
  | 1, _ => exact ⟨.display, ft.display, rfl, rfl, by simp [unpackField]⟩
  | 2, _ => exact ⟨.buzzer, ft.buzzer, rfl, rfl, by simp [unpackField]⟩
  | 3, _ => exact ⟨.eco, ft.eco, rfl, rfl, by simp [unpackField]⟩
  | 4, _ => exact ⟨.heater8Degree, ft.heater8Degree, rfl, rfl, by simp [unpackField]⟩
  | 5, _ => exact ⟨.health, ft.health, rfl, rfl, by simp [unpackField]⟩

theorem flowByte_toNat (v h : FieldResult) : (flowByte v h).toNat = v.flow.toNat + 2 * h.flow.toNat := by
  simp only [flowByte, toNat_append_eq, BitVec.toNat_ofBool, BitVec.toNat_ofNat]
  omega

theorem padByte_getLsbD_zero (padmap : List Bool) : (padByte padmap).getLsbD 0 = decide (true ∈ padmap) := by
  rw [padByte, BitVec.getLsbD_append, if_pos Nat.one_pos, Bool.eq_iff_iff]
  simp

theorem padByte_toNat_div_two (padmap : List Bool) : (padByte padmap).toNat / 2 = min (padmap.count true) 127 := by
  have hbit := Bool.toNat_lt (padmap.any id)
  rw [padByte, toNat_append_eq, BitVec.toNat_ofNat, BitVec.toNat_ofBool]
  omega

/-! ## The obligation -/

/-- R58, R116: FUNPACK of a field id, on the payload operand. -/
theorem exec_funpack_operand (s : State) {fid : BitVec 4} {f : Field} (hf : fieldOf fid = some f) :
    exec (.funpack fid) s =
      .next (s.respond (.ok (.field (unpackField s.cfg.ft (payloadOperand s.cfg s.bus) f)))) := by
  simp only [exec, execFunpack, hf, State.answer_ok]

/-- Settles O37: each byte of the image from the field results that FUNPACK answers. -/
theorem decsLaysOutTheImage : Obligations.DecsLaysOutTheImage := by
  intro s
  refine ⟨_, rfl, fun k hlow hhigh => ?codes, fun k hk => ?bools, boolsByte_toNat_lt _ _, rfl, ?flow,
    padMap_length _ _ _, padByte_getLsbD_zero _, padByte_toNat_div_two _⟩
  case codes =>
    obtain ⟨f, hf, hcode, hraw⟩ := dsi_of_code_field s.cfg (payloadOperand s.cfg s.bus) hlow hhigh
    rw [(fitsImage_unpackField _ _ f).codeByte_eq] at hcode
    exact ⟨_, exec_funpack_operand s hf, hcode, hraw⟩
  case bools =>
    obtain ⟨f, e, hf, hunpack, hbit⟩ := boolsByte_bit s.cfg.ft (payloadOperand s.cfg s.bus) hk
    refine ⟨_, exec_funpack_operand s hf, ?_⟩
    rw [hunpack, unpackBool_code_toNat, ← hbit]
    rfl
  case flow => exact ⟨_, _, exec_funpack_operand s rfl, exec_funpack_operand s rfl, flowByte_toNat _ _⟩

end Sys2Proof.Machine
end

section
/-! PROOFS. The front-end requests that decode no frame (ob. O47, O48, O49, O50): FE_PUSH and FE_ABORT on the receive buffer,
FE_RD over the register map, FE_WR on FE_CTRL. -/

namespace Sys2Proof

/-- R54: a command word written byte by byte, FID being 0. -/
theorem bytes_eq_cmdWord (op : BitVec 5) (a d : Byte) : d ++ a ++ 0x00#8 ++ (0#3 ++ op) = cmdWord op 0 a d := by
  apply BitVec.eq_of_toNat_eq
  simp only [cmdWord, toNat_append_eq, BitVec.ofNat_eq_ofNat, BitVec.toNat_ofNat]
  omega

/-- A byte is given by its number. -/
theorem Byte.eq_ofNat_of_toNat {b : Byte} {n : Nat} (h : b.toNat = n) : b = BitVec.ofNat 8 n := by
  simp [← h]

/-- The byte at each index of a byte string with one byte replaced. -/
theorem byteAt_set {p : List Byte} {i : Nat} (h : i < p.length) (b : Byte) (k : Nat) :
    byteAt (p.set i b) k = if k = i then b else byteAt p k := by
  by_cases hk : k = i
  · subst hk; simp [byteAt, h]
  · simp [byteAt, hk, Ne.symm hk]

end Sys2Proof

namespace Sys2Proof.Machine

open Sys2Proof

/-! ## The operations where the front-end is present -/

section
variable {s : State} (hfe : s.cfg.hasFe = true)
include hfe

theorem exec_fePush_of_full (d : Byte) (full : ¬ s.fe.rxcnt.toNat < s.cfg.nMax) :
    exec (.fePush d) s = .next ((s.setFe s.fe.overflow).respond (.err feOverflow)) :=
  (State.ifFrontEnd_true hfe _).trans (if_neg full)

theorem exec_feAbort_of_hasFe : exec .feAbort s = .next ((s.setFe s.fe.clearRx).respond (.ok .done)) :=
  State.ifFrontEnd_true hfe _

theorem exec_feRd_of_mapped {a v : Byte} (h : s.fe.readReg a = some v) :
    exec (.feRd a) s = .next (s.respond (.ok (.byte v))) := by
  refine (State.ifFrontEnd_true hfe _).trans ?_
  rw [h]
  rfl

theorem exec_feRd_of_reserved {a : Byte} (h : s.fe.readReg a = none) :
    exec (.feRd a) s = .next (s.respond (.err badOperand)) := by
  refine (State.ifFrontEnd_true hfe _).trans ?_
  rw [h]
  rfl

theorem exec_feWr_of_ctrl (d : Byte) : exec (.feWr 0x00 d) s = .next ((s.setFe (s.fe.setCtrl d)).respond (.ok .done)) :=
  (State.ifFrontEnd_true hfe _).trans (if_pos rfl)

theorem exec_feWr_of_ne {a : Byte} (d : Byte) (h : a ≠ 0x00) :
    exec (.feWr a d) s = .next (s.respond (.err badOperand)) :=
  (State.ifFrontEnd_true hfe _).trans (if_neg h)

end

/-! ## The status bytes as numbers (R27, R28, R29) -/

section
variable (fe : FrontEnd)

theorem FrontEnd.ctrlByte_eq : fe.ctrlByte = BitVec.ofNat 8 fe.ctrl.toNat := by
  apply Byte.eq_ofNat_of_toNat
  simp only [ctrlByte, toNat_append_eq, BitVec.toNat_ofNat]
  omega

theorem FrontEnd.statusByte_eq : fe.statusByte = BitVec.ofNat 8 (fe.srfValid.toNat + 2 * fe.lastCsumValid.toNat +
    4 * fe.lastDir.code.toNat + 8 * fe.lastDirValid.toNat + 16 * fe.rxovf.toNat + 32 * fe.lastSrfWritten.toNat) := by
  apply Byte.eq_ofNat_of_toNat
  simp only [statusByte, toNat_append_eq, BitVec.toNat_ofBool, BitVec.toNat_ofNat]
  omega

theorem FrontEnd.kindByte_eq :
    fe.kindByte = BitVec.ofNat 8 (fe.lastKind.code.toNat + 16 * fe.lastStatus.code.toNat) := by
  apply Byte.eq_ofNat_of_toNat
  simp only [kindByte, toNat_append_eq, BitVec.toNat_ofNat]
  omega

/-! ## The register map (R26) -/

/-- R26, R35: the addresses 0x10 to 0x1F are the bytes of the SRF. -/
theorem FrontEnd.readReg_srf {a : Byte} {k : Fin 16} (h : a.toNat = 0x10 + k) : fe.readReg a = some fe.srf[k] := by
  have hk : (k : Nat) < 16 := k.isLt
  unfold readReg
  split
  case h_9 => simp [h, show 16 + (k : Nat) ≤ 31 by omega]
  all_goals omega

/-- R36: the reserved addresses. -/
theorem FrontEnd.readReg_reserved {a : Byte} (h : (0x08 ≤ a.toNat ∧ a.toNat ≤ 0x0F) ∨ 0x20 ≤ a.toNat) :
    fe.readReg a = none := by
  unfold readReg
  split
  case h_9 => exact if_neg (by omega)
  all_goals omega

end

/-! ## The obligations -/

/-- Settles O48: the update is the model's `clearRx`. -/
theorem feAbortDiscardsTheFrame : Obligations.FeAbortDiscardsTheFrame :=
  ⟨by decide, fun _ hfe => exec_feAbort_of_hasFe hfe⟩

/-- Settles O50: the two branches on the address; the low three bits of D are the remainder modulo 8. -/
theorem feWrWritesControlOnly : Obligations.FeWrWritesControlOnly := by
  intro s a d hfe
  refine ⟨?decode, ?ctrl, exec_feWr_of_ne hfe d⟩
  case decode => exact bytes_eq_cmdWord 0x14 a d ▸ Laws.RoundTrip.feWr a d rfl
  case ctrl =>
    rintro rfl
    have hbits : d.extractLsb' 0 3 = BitVec.ofNat 3 (d.toNat % 8) := by
      apply BitVec.eq_of_toNat_eq
      simp
    rw [exec_feWr_of_ctrl hfe, FrontEnd.setCtrl, hbits]
    rfl

/-- Settles O49: each address of the map by its arm of `readReg`, the SRF and the reserved ranges by its last arm. -/
theorem feRdReadsTheRegisterMap : Obligations.FeRdReadsTheRegisterMap := by
  intro s a hfe n reads
  have hread {v : Byte} (h : s.fe.readReg a = some v) : reads v := exec_feRd_of_mapped hfe h
  refine ⟨?decode, fun h => ?ctrl, fun h => ?status, fun h => ?kind, fun h => ?cmd, fun h => ?id, fun h => ?seq,
    fun h => ?rxcnt, fun h => ?len, fun k h => hread (s.fe.readReg_srf h),
    fun h => exec_feRd_of_reserved hfe (s.fe.readReg_reserved h)⟩
  case decode => exact bytes_eq_cmdWord 0x13 a 0 ▸ Laws.RoundTrip.feRd a rfl
  all_goals
    refine hread ?_
    change a.toNat = _ at h
  case ctrl => simp only [FrontEnd.readReg, h, s.fe.ctrlByte_eq]
  case status => simp only [FrontEnd.readReg, h, s.fe.statusByte_eq]
  case kind => simp only [FrontEnd.readReg, h, s.fe.kindByte_eq]
  case cmd | id | seq | rxcnt | len => simp only [FrontEnd.readReg, h]

/-- Settles O47: the branches on RXCNT; the room left keeps RXCNT from wrapping, for NMAX is at most 255. -/
theorem fePushAppendsOrOverflows : Obligations.FePushAppendsOrOverflows := by
  intro s d hfe hinv
  obtain ⟨hlegal, hfeInv⟩ := hinv
  have hmax : s.cfg.nMax ≤ 255 := nMax_le_of_legal hlegal
  have hlength : s.fe.rxbuf.length = s.cfg.nMax := hfeInv.rxbuf_length
  refine ⟨?decode, fun room => ?push, fun full => exec_fePush_of_full hfe d (by omega)⟩
  case decode => exact bytes_eq_cmdWord 0x10 0 d ▸ Laws.RoundTrip.fePush d rfl
  case push =>
    have hcnt : (s.fe.rxcnt + 1).toNat = s.fe.rxcnt.toNat + 1 := byte_succ_toNat (by omega)
    refine ⟨s.fe.rxbuf.set s.fe.rxcnt.toNat d, exec_fePush_of_room d hfe room, hcnt, byteAt_set (by omega) d, ?_⟩
    rw [← FrontEnd.received_pushByte d hlength room hmax, FrontEnd.received, FrontEnd.pushByte_rxcnt, hcnt]
    rfl

end Sys2Proof.Machine
end

section
/-! PROOFS. FE_EOF (ob. O51): every register it updates, as a function of DECF's response to the received frame, of the frame's
length and bytes, and of FE_CTRL. -/

namespace Sys2Proof.Machine

open Sys2Proof

/-! ## The received frame (R38, R81, R125) -/

section
variable {c : Config} {fe : FrontEnd}

/-- R38(d): RXCNT counts the valid bytes. -/
theorem FrontEnd.Inv.received_length (h : fe.Inv c) : fe.received.length = fe.rxcnt.toNat := by
  rw [FrontEnd.received, List.length_take, h.rxbuf_length]
  exact Nat.min_eq_left h.rxcnt_le

theorem FrontEnd.byteAt_received {i : Nat} (h : i < fe.rxcnt.toNat) : byteAt fe.received i = byteAt fe.rxbuf i := by
  simp [byteAt, FrontEnd.received, h]

end

section
variable {frame : List Byte}

theorem verifyFrame_eq_decide : verifyFrame frame = decide (1 ≤ frame.length ∧ xorFold frame = 0) := by
  by_cases hnil : frame = []
  · simp [hnil]
  · rw [verifyFrame_eq_xorFold hnil]
    simp [Nat.succ_le_iff, List.length_pos_iff, hnil, beq_eq_decide]

/-- R125: the two ways to have a direction. -/
theorem frameDirection_cases {d : Direction} (h : frameDirection frame = some d) : 3 ≤ frame.length ∧
    ((d = .a2u ∧ byteAt frame 1 = 0x00 ∧ byteAt frame 2 = 0x01) ∨
     (d = .u2a ∧ byteAt frame 1 = 0x01 ∧ byteAt frame 2 = 0x00)) := by
  unfold frameDirection at h
  split_ifs at h with hshort ha2u hu2a
  · cases h; exact ⟨Nat.le_of_not_lt hshort, .inl ⟨rfl, ha2u⟩⟩
  · cases h; exact ⟨Nat.le_of_not_lt hshort, .inr ⟨rfl, hu2a⟩⟩

theorem frameDirection_eq_u2a_iff :
    frameDirection frame = some .u2a ↔ 3 ≤ frame.length ∧ byteAt frame 1 = 0x01 ∧ byteAt frame 2 = 0x00 := by
  refine ⟨fun h => ?_, fun ⟨hlen, h1, h2⟩ => frameDirection_u2a hlen h1 h2⟩
  simpa using frameDirection_cases h

theorem frameDirection_isSome_eq : (frameDirection frame).isSome =
    decide (3 ≤ frame.length ∧ isDirectionPair (byteAt frame 1) (byteAt frame 2)) := by
  rw [Bool.eq_iff_iff, decide_eq_true_iff]
  refine ⟨fun h => ?_, fun ⟨hlen, hpair⟩ => frameDirection_isSome hlen hpair⟩
  obtain ⟨d, hd⟩ := Option.isSome_iff_exists.mp h
  obtain ⟨hlen, ⟨-, ha2u⟩ | ⟨-, hu2a⟩⟩ := frameDirection_cases hd
  · exact ⟨hlen, .inl ha2u⟩
  · exact ⟨hlen, .inr hu2a⟩

end

/-- R28: the direction reads 1 for unit→adapter only; a frame without a direction reads 0. -/
theorem getD_a2u_eq_u2a_iff {o : Option Direction} : o.getD .a2u = .u2a ↔ o = some .u2a := by
  cases o <;> simp

/-! ## What the end of a frame finds out (R136, R137) -/

section
variable {c : Config} {fe : FrontEnd}

theorem frameEnd_csv (h : fe.rxovf = false) : (frameEnd c fe).csv = verifyFrame fe.received := by simp [frameEnd, h]

theorem frameEnd_written_eq (h : fe.rxovf = false) : (frameEnd c fe).written =
    if fe.accepts ((frameDirection fe.received).getD .a2u) (verifyFrame fe.received) then (frameEnd c fe).codes.dsi
    else none := by simp [frameEnd, h]

theorem frameEnd_written_of_error (h : fe.rxovf = false) {e : Error} (hd : decodeFrame c fe.received = .error e) :
    (frameEnd c fe).written = none := by
  rw [frameEnd_written_eq h, frameEnd_codes_eq h, hd]
  exact ite_self _

/-- R136: the image of a frame that decodes is written when it is a state-set frame that FE_CTRL accepts. -/
theorem frameEnd_written_of_ok (h : fe.rxovf = false) {d : DecodedFrame} (hd : decodeFrame c fe.received = .ok d) :
    (frameEnd c fe).written = if decide (d.kind = .stateSet) && fe.accepts d.dir d.csv then some d.dsi else none := by
  obtain ⟨-, -, hdir, hcsv, -⟩ := decodeFrame_ok hd
  rw [frameEnd_written_eq h, frameEnd_codes_eq h, hd, ← hdir, ← hcsv]
  simp only [frameEndCodes, Bool.and_eq_true, decide_eq_true_eq, ite_and]
  split_ifs <;> rfl

theorem FrontEnd.endFrame_lastSrfWritten_of_ok (h : fe.rxovf = false) {d : DecodedFrame}
    (hd : decodeFrame c fe.received = .ok d) :
    (fe.endFrame c).lastSrfWritten = (decide (d.kind = .stateSet) && fe.accepts d.dir d.csv) := by
  rw [endFrame_lastSrfWritten, frameEnd_written_of_ok h hd, Bool.eq_iff_iff]
  exact Option.isSome_ite

/-- R27, R136: which bits of FE_CTRL accept a frame. -/
theorem FrontEnd.accepts_eq (dir : Direction) (csv : Bool) : fe.accepts dir csv =
    ((if dir = .a2u then fe.ctrl.getLsbD 1 else fe.ctrl.getLsbD 2) && (csv || fe.ctrl.getLsbD 0)) := by
  cases dir <;> rfl

end

/-- R137: all register updates of FE_EOF after an overflow; the SRF is not among them. -/
theorem FrontEnd.endFrame_of_overflow {c : Config} {fe : FrontEnd} (h : fe.rxovf = true) :
    fe.endFrame c = { fe with
      rxcnt := 0, rxovf := false, lastKind := .malformed, lastStatus := .feOverflow, lastId := 5,
      lastCmd := if 4 ≤ fe.rxcnt.toNat then byteAt fe.rxbuf 3 else 0, lastLen := fe.rxcnt,
      lastCsumValid := false, lastDir := .a2u, lastDirValid := false, lastSrfWritten := false,
      seq := fe.seq + 1 } := by
  simp [FrontEnd.endFrame, frameEnd_of_overflow h, overflowCodes, MalformedReason.code]

/-- Settles O51: an overflowed frame by its fixed codes; the registers of any other frame one by one, those that rest on DECF's
response by the codes that the frame's decoding determines. -/
theorem feEofEndsTheFrame : Obligations.FeEofEndsTheFrame := by
  refine ⟨by decide, fun s hfe => ⟨fun hovf => ?overflow, fun hinv hovf => ?received⟩⟩
  case overflow =>
    rw [exec_feEof_of_hasFe hfe, FrontEnd.kindByte_eq, FrontEnd.endFrame_of_overflow hovf]
    rfl
  case received =>
    intro frame n asked
    obtain ⟨hlegal, hfeInv⟩ := hinv
    have hlength : frame.length = n := hfeInv.received_length
    have hdecf : exec .decf asked = asked.answer (decfAnswer s.cfg frame) :=
      exec_decf_withFrame (nMax_le_of_legal hlegal) (hlength.trans_le hfeInv.rxcnt_le)
    refine ⟨s.fe.endFrame s.cfg, ?response, rfl, rfl, rfl, rfl, rfl, rfl, ?cmd, ?csum, ?dirValid, ?dir,
      fun e hexec => ?err, fun d hexec => ?ok⟩
    case response =>
      rw [exec_feEof_of_hasFe hfe, FrontEnd.kindByte_eq, Nat.add_comm]
      rfl
    case cmd =>
      rw [FrontEnd.endFrame_lastCmd]
      exact ite_congr rfl (fun hlen => (FrontEnd.byteAt_received (by omega)).symm) (fun _ => rfl)
    case csum => rw [FrontEnd.endFrame_lastCsumValid, frameEnd_csv hovf, ← hlength, verifyFrame_eq_decide]
    case dirValid => rw [FrontEnd.endFrame_lastDirValid, frameEnd_dir hovf, ← hlength, frameDirection_isSome_eq]
    case dir =>
      rw [FrontEnd.endFrame_lastDir, frameEnd_dir hovf, ← hlength, getD_a2u_eq_u2a_iff, frameDirection_eq_u2a_iff]
    case err =>
      have herr : decodeFrame s.cfg frame = .error e :=
        decfAnswer_eq_error_iff.mp (State.error_of_answer (hdecf.symm.trans hexec) rfl)
      have hcodes : (frameEnd s.cfg s.fe).codes = frameEndCodes (.error e) := herr ▸ frameEnd_codes_eq hovf
      simp [hcodes, frameEndCodes, frameEnd_written_of_error hovf herr]
    case ok =>
      have hok : decodeFrame s.cfg frame = .ok d :=
        decfAnswer_eq_ok_iff.mp (State.ok_of_answer (hdecf.symm.trans hexec) rfl)
      have hcodes : (frameEnd s.cfg s.fe).codes = frameEndCodes (.ok d) := hok ▸ frameEnd_codes_eq hovf
      obtain ⟨-, -, hdir, hcsv, -⟩ := decodeFrame_ok hok
      have hlast := FrontEnd.endFrame_lastSrfWritten_of_ok hovf hok
      refine ⟨?_, ?_, ?_, ?_, ?_, ?_, ?_, rfl⟩
      · rw [FrontEnd.endFrame_lastKind, hcodes]; rfl
      · rw [FrontEnd.endFrame_lastId, hcodes]; rfl
      · rw [FrontEnd.endFrame_lastStatus, hcodes]; rfl
      · rw [FrontEnd.endFrame_lastCsumValid, frameEnd_csv hovf, hcsv]
      · rw [FrontEnd.endFrame_lastDir, frameEnd_dir hovf, hdir]
      · rw [hlast, FrontEnd.accepts_eq, Bool.and_assoc]
      · rw [hlast, FrontEnd.endFrame_srf, frameEnd_written_of_ok hovf hok]
        exact apply_ite (Option.getD · s.fe.srf) _ _ _

end Sys2Proof.Machine
end

section
/-! PROOFS. Errors are responses and nothing else: every step answers a next state (ob. O6), an operation gives only the errors
of R146 (ob. O19), and an `Err` response changes no state but for FE_PUSH's overflow (ob. O17). -/

namespace Sys2Proof.Machine

open Sys2Proof

/-- R135, R146: FE_OVERFLOW is listed for FE_PUSH alone. -/
theorem status_ne_feOverflow_of_mem_errorsOf {i : Instr} {e : Error} (hi : ∀ d, i ≠ .fePush d) (h : e ∈ errorsOf i) :
    e.status ≠ .feOverflow := by
  revert e
  cases i with
  | fePush d => exact absurd rfl (hi d)
  | _ => simp [errorsOf]

/-- R144: all that an operation with an `Err` response can have done: nothing but to give it, or, as FE_PUSH alone, to set
RXOVF. -/
theorem exec_err_cases {i : Instr} {s t : State} {e : Error} (h : exec i s = .next t) (he : t.resp = some (.err e)) :
    (t = s.respond (.err e) ∧ e.status ≠ .feOverflow) ∨
    (∃ d, i = .fePush d ∧ e = feOverflow ∧ t = (s.setFe s.fe.overflow).respond (.err e)) := by
  cases hi : isCoreOp i with
  | true =>
    obtain ⟨a, ha, -⟩ := exec_eq_answer_of_isCoreOp (s := s) hi rfl rfl
    have hanswer : s.answer a = .next t := ha.symm.trans h
    have hpush : ∀ d, i ≠ .fePush d := by rintro d rfl; cases hi
    refine .inl ⟨?_, status_ne_feOverflow_of_mem_errorsOf hpush (exec_err_mem_errorsOf (.inl hi) h he)⟩
    rw [State.answer_next hanswer, State.error_of_answer hanswer he]
    rfl
  | false =>
    cases hfe : s.cfg.hasFe with
    | false =>
      cases (frontEndAbsentIsIllegal i s hi hfe).symm.trans h
      cases he
      exact .inl ⟨rfl, nofun⟩
    | true =>
      cases i with
      | fePush d =>
        by_cases room : s.fe.rxcnt.toNat < s.cfg.nMax
        · cases (exec_fePush_of_room d hfe room).symm.trans h
          cases he
        · cases (exec_fePush_of_full hfe d room).symm.trans h
          cases he
          exact .inr ⟨d, rfl, rfl, rfl⟩
      | feEof =>
        cases (exec_feEof_of_hasFe hfe).symm.trans h
        cases he
      | feAbort =>
        cases (exec_feAbort_of_hasFe hfe).symm.trans h
        cases he
      | feRd a =>
        cases hreg : s.fe.readReg a with
        | some v =>
          cases (exec_feRd_of_mapped hfe hreg).symm.trans h
          cases he
        | none =>
          cases (exec_feRd_of_reserved hfe hreg).symm.trans h
          cases he
          exact .inl ⟨rfl, nofun⟩
      | feWr a d =>
        by_cases ha : a = 0x00
        · subst ha
          cases (exec_feWr_of_ctrl hfe d).symm.trans h
          cases he
        · cases (exec_feWr_of_ne hfe d ha).symm.trans h
          cases he
          exact .inl ⟨rfl, nofun⟩
      | _ => cases hi

/-! ## The obligations -/

/-- Settles O17: the two cases of an `Err` response differ in the status of the error. -/
theorem errorsChangeNothing : Obligations.ErrorsChangeNothing := by
  intro i s t e h he
  obtain ⟨rfl, hstatus⟩ | ⟨d, rfl, rfl, rfl⟩ := exec_err_cases h he
  · exact ⟨rfl, rfl, rfl, fun _ => rfl, fun hovf => absurd hovf hstatus⟩
  · exact ⟨rfl, rfl, rfl, absurd rfl, fun _ => ⟨⟨d, rfl⟩, rfl⟩⟩

/-- Settles O19: with the front-end present every operation exists. -/
theorem errorsPerOperation : Obligations.ErrorsPerOperation :=
  fun _ _ _ _ hfe h he => exec_err_mem_errorsOf (.inr hfe) h he

/-- Settles O6: a step resets, answers the request in flight, accepts the next one, or idles. -/
theorem everyStepAnswers : Obligations.EveryStepAnswers := by
  intro s
  cases hrst : s.rst with
  | true => exact ⟨s.assertReset, by simp [step, hrst]⟩
  | false =>
    cases hcmd : s.cmd with
    | some w =>
      obtain ⟨fe, r, -, hstep⟩ := step_answers hrst hcmd
      exact ⟨(s.setFe fe).respond r, hstep⟩
    | none =>
      obtain ⟨haccept, hidle, -⟩ := oneRequestAtATime s hrst
      cases hwait : s.waiting with
      | nil => exact ⟨_, hidle hcmd hwait⟩
      | cons r rest => exact ⟨_, haccept r rest hcmd hwait⟩

end Sys2Proof.Machine
end

section
/-! PROOFS. Reset and the configuration: no step changes the configuration (ob. O14), and a reset drops the request in flight and
gives the front-end registers the values of R37 (ob. O11). -/

namespace Sys2Proof.Machine

open Sys2Proof

/-! ## The configuration (R21, R22, R158) -/

/-- R49: an operation updates the front-end registers at most, and they are not the configuration. -/
theorem exec_cfg {i : Instr} {s t : State} (h : exec i s = .next t) : t.cfg = s.cfg := by
  obtain ⟨fe, r, -, hanswer⟩ := exec_answers i s
  cases hanswer.symm.trans h
  rfl

/-! ## FE_RD after a reset (R26, R37) -/

section
variable (nMax : Nat)

theorem FrontEnd.ctrlByte_reset : (FrontEnd.reset nMax).ctrlByte = 0x06 := FrontEnd.ctrlByte_eq _

theorem FrontEnd.statusByte_reset : (FrontEnd.reset nMax).statusByte = 0x00 := FrontEnd.statusByte_eq _

theorem FrontEnd.kindByte_reset : (FrontEnd.reset nMax).kindByte = 0x00 := FrontEnd.kindByte_eq _

theorem FrontEnd.readReg_reset_ctrl : (FrontEnd.reset nMax).readReg 0x00 = some 0x06 :=
  congrArg some (FrontEnd.ctrlByte_reset nMax)

/-- R28 to R34, R37: the registers at 0x01 to 0x07 after a reset, the two packed status bytes by their numbers. -/
theorem FrontEnd.readReg_reset_status {a : Byte} (h : 0x01 ≤ a.toNat ∧ a.toNat ≤ 0x07) :
    (FrontEnd.reset nMax).readReg a = some 0x00 := by
  obtain ⟨hlow, hhigh⟩ := h
  unfold readReg
  interval_cases a.toNat
  · exact congrArg some (FrontEnd.statusByte_reset nMax)
  · exact congrArg some (FrontEnd.kindByte_reset nMax)
  all_goals rfl

/-- R35, R37: the SRF after a reset holds zeros. -/
theorem FrontEnd.srf_reset (k : Fin 16) : (FrontEnd.reset nMax).srf[k] = 0 := Vector.getElem_replicate k.isLt

theorem FrontEnd.readReg_reset_srf {a : Byte} (h : 0x10 ≤ a.toNat ∧ a.toNat ≤ 0x1F) :
    (FrontEnd.reset nMax).readReg a = some 0x00 := by
  have hk : a.toNat = 0x10 + (⟨a.toNat - 0x10, by omega⟩ : Fin 16) := by simp only; omega
  rw [FrontEnd.readReg_srf _ hk, FrontEnd.srf_reset]

end

/-! ## The obligations -/

/-- Settles O14: of the things a step can do, a reset, an ILLEGAL_OP, an acceptance and idling name the registers they change,
and an operation keeps the configuration by `exec_cfg`. -/
theorem stepKeepsConfiguration : Obligations.StepKeepsConfiguration := by
  intro s t h
  obtain ⟨-, rfl⟩ | ⟨w, i, -, -, -, hexec⟩ | ⟨w, e, -, -, -, rfl⟩ | ⟨r, rest, -, -, -, rfl⟩ | ⟨-, -, -, rfl⟩ := step_cases h
  case inl => exact s.assertReset_cfg
  case inr.inl => exact exec_cfg hexec
  case inr.inr.inl => exact s.respond_cfg _
  case inr.inr.inr.inl => exact s.accept_cfg r rest
  case inr.inr.inr.inr => exact s.idle_cfg

/-- Settles O11: the next state is the model's `assertReset`, whose front-end registers are those of `FrontEnd.reset`. -/
theorem resetDropsRequestAndClearsFrontEnd : Obligations.ResetDropsRequestAndClearsFrontEnd := by
  intro s hrst
  refine ⟨s.assertReset, if_pos hrst, rfl, rfl, rfl, rfl, rfl, rfl, rfl, rfl, rfl, rfl, rfl, rfl, rfl, rfl, rfl, rfl, rfl,
    FrontEnd.srf_reset _, fun a hfe => ⟨?ctrl, ?zero⟩⟩
  case ctrl =>
    rintro rfl
    exact exec_feRd_of_mapped (s := s.assertReset) hfe (FrontEnd.readReg_reset_ctrl _)
  case zero =>
    rintro (hstatus | hsrf)
    · exact exec_feRd_of_mapped (s := s.assertReset) hfe (FrontEnd.readReg_reset_status _ hstatus)
    · exact exec_feRd_of_mapped (s := s.assertReset) hfe (FrontEnd.readReg_reset_srf _ hsrf)

end Sys2Proof.Machine
end
